-- ==== Sys2Proof/Word.lean ====
section
/-! DEFINITION. Words of bits: bytes, DWs, the fields of a word and Bools as bits. -/

namespace Sys2Proof

/-- A byte. -/
abbrev Byte := BitVec 8

/-- A DW is 32 bits (file 00, "Numbers, bits and bytes"). -/
abbrev DW := BitVec 32

/-- A register of the window is 64 bits (R314). -/
abbrev Reg64 := BitVec 64

/-- The `len` bits of `w` from bit `lo` up: field [lo+len-1:lo] of the manual. -/
def fld {n : Nat} (w : BitVec n) (lo len : Nat) : BitVec len := w.extractLsb' lo len

/-- Bit `i` of `w`. -/
def bitAt {n : Nat} (w : BitVec n) (i : Nat) : Bool := w.getLsbD i

/-- A Bool as one bit. -/
def b1 (b : Bool) : BitVec 1 := BitVec.ofBool b

/-- `v` placed with its bit 0 at bit `lo` of a 64-bit register, all other bits zero. -/
def at64 {n : Nat} (v : BitVec n) (lo : Nat) : Reg64 := v.setWidth 64 <<< lo

/-- `v` placed with its bit 0 at bit `lo` of a DW. -/
def at32 {n : Nat} (v : BitVec n) (lo : Nat) : DW := v.setWidth 32 <<< lo

/-- Low and high DW of a register. -/
def lo32 (w : Reg64) : DW := w.setWidth 32

/-- High DW of a register. -/
def hi32 (w : Reg64) : DW := w.extractLsb' 32 32

/-- A register from its two DWs, the low one first (R3). -/
def reg64 (lo hi : DW) : Reg64 := hi ++ lo

/-- The 48-bit count that a class-K counter holds. -/
abbrev Count := BitVec 48

/-- Increment that holds at the largest value. -/
def holdInc {n : Nat} (v : BitVec n) (k : Nat) : BitVec n :=
  if v.toNat + k < 2 ^ n then BitVec.ofNat n (v.toNat + k) else BitVec.allOnes n

/-- Even parity bit of a word: 1 when the number of ones is odd, so that word and bit together have an even number of
ones (R20). -/
def evenParity {n : Nat} (w : BitVec n) : Bool :=
  (List.range n).foldl (fun acc i => xor acc (w.getLsbD i)) false

/-- Bytes of a word, the lowest-addressed first (R3). -/
def bytesOf {n : Nat} (w : BitVec n) (count : Nat) : List Byte :=
  (List.range count).map fun i => w.extractLsb' (8 * i) 8

/-- The word that a list of bytes spells, the lowest-addressed byte least significant (R3). -/
def natOfBytes : List Byte → Nat
  | [] => 0
  | b :: r => b.toNat + 256 * natOfBytes r

/-- DWs of a word, DW0 first. -/
def dwsOf {n : Nat} (w : BitVec n) (count : Nat) : List DW :=
  (List.range count).map fun i => w.extractLsb' (32 * i) 32

/-- The number that a list of DWs spells, DW0 least significant. -/
def natOfDws : List DW → Nat
  | [] => 0
  | d :: r => d.toNat + 4294967296 * natOfDws r

/-- Bytes of a list of DWs. -/
def bytesOfDws (l : List DW) : List Byte := l.flatMap fun d => bytesOf d 4

end Sys2Proof
end

