-- ==== Sys2Proof/Syntax.lean ====
section
/-! DEFINITION. The commands of the block: one constructor of `Instr` for each row of spec/opcode_table.json, and the types
of their operands. -/

namespace Sys2Proof

/-- A mailbox: one of the 8 control mailboxes or a tenant's (file 09, R164). -/
inductive Mbx where
  | ctl (m : Fin 8)
  | ten (t : BitVec 8)
deriving DecidableEq, Repr

/-- A Seam link: the twin link, or the Seam-R session of one peer block number and strap (R229). -/
inductive Seam where
  | twin
  | relay (blk : BitVec 11) (strap : Bool)
deriving DecidableEq, Repr

/-- Where a message waits for its slice: in the queue of a DIP, or in AON's wired path (R68, R80). -/
inductive Origin where
  | dip (d : Fin 16)
  | wired
deriving DecidableEq, Repr

/-- The part of an 8-byte register that an access reaches (R314). -/
inductive Acc where
  | w8
  | lo
  | hi
deriving DecidableEq, Repr

/-- Who makes a request of the register target port, and whether its parity is good (Table 2-7, R20). -/
structure Rq where
  port : BitVec 8
  reqid : BitVec 16
  colour : BitVec 8
  parityOk : Bool
deriving DecidableEq, Repr

/-- The straps as the block samples them (Table 2-9). -/
structure Straps where
  twin : Bool
  blknum : BitVec 11
  lanes : BitVec 4
  budget : BitVec 16
  fwBase : BitVec 52
deriving DecidableEq, Repr

/-- A word received on a Seam-T lane (R226). -/
structure LaneWord where
  lane : BitVec 3
  word : BitVec 272
deriving DecidableEq, Repr

/-- A flit as it arrives: four quarters on lanes of Seam-T (R227), or a flit and header words of the Seam-R stream (R44,
R45). -/
inductive RxFlit where
  | lanes (q0 q1 q2 q3 : LaneWord)
  | stream (f : BitVec 1024) (h : BitVec 64)
deriving DecidableEq, Repr

/-- What reading and verifying a Twifomon image found (R264, R306): the image itself lies outside the block. -/
structure FwImage where
  readOk : Bool
  sigOk : Bool
  lenKiB : BitVec 32
  svn : BitVec 64
  version : DW
  digest : BitVec 384
  manifest : BitVec 384
deriving DecidableEq, Repr

/-- The kinds of SPDM request (Table 14-5). A secured message carries a Twifomon command (R258). -/
inductive SpdmReq where
  | getVersion
  | getCapabilities
  | negotiateAlgorithms
  | getDigests
  | getCertificate
  | challenge
  | getMeasurements
  | keyExchange
  | finish
  | secured (opcode : BitVec 16) (args : List DW)
  | other
deriving DecidableEq, Repr

/-- The error kinds of Table 16-2, and `logUe`, an uncorrectable error in the log's own SRAM, which has no code since it is never
logged there (R291): its DETAIL DW9 names the log entry, DW10 the syndrome. -/
inductive ErrKind where
  | violation | sramCe | timeStall | guarShort | mbxSlow | twinTakeover
  | seamRetrain | seamDown | seamRinse | seamLaneDrop | seamLaneAdd | seamMismatch
  | bundleResend | relayReject | relayPathFail | relayDiscard
  | coreDfault | coreLockstep | coreWdog
  | srcUe | ringUe | writeErr | regionUe | slotUe | entryUe | keyUe | tallyUe | journalUe | zeroFail
  | portParity | queueUe | fwHalt | pwrTimeout | controlUe | logUe
deriving DecidableEq, Repr

/-- A unit of Table 16-1: its type code and its UNIT encoding. -/
structure ErrUnit where
  typ : BitVec 4
  val : BitVec 28
deriving DecidableEq, Repr

/-- An edge of PRST_REQ of a switch port (R38; Table 2-2, phases 1 and 3). -/
structure PortReset where
  port : Fin 64
  rise : Bool
deriving DecidableEq, Repr

/-- The unit that holds a scrubbed word; `log` says that the word is of the Mending Log's own SRAM (R291, R332). -/
structure ScrubUnit where
  unit : ErrUnit
  log : Bool
deriving DecidableEq, Repr

/-- What the scrubber finds in a word (R332): clean, correctable with a syndrome, or uncorrectable. -/
inductive ScrubResult where
  | clean
  | correctable (syndrome : Byte)
  | uncorrectable (syndrome : Byte)
deriving DecidableEq, Repr

/-- How a fault of the Maluri core shows (R294). -/
inductive CoreFaultKind where
  | dfault (sp : BitVec 64)
  | lockstep
deriving DecidableEq, Repr

/-- The class-S flags that software clears with a tag (R317). -/
inductive FlagReg where
  | timeStall
  | paceShort
  | twinTakeover
  | ctrWrap (d : Fin 30) (k : Fin 8)
deriving DecidableEq, Repr

/-- The registers that a consumer-index write of its own row reaches (R131). -/
inductive ConsReg where
  | errRing
  | ledger (t : BitVec 8)
deriving DecidableEq, Repr

/-- The arbiter registers that ARBITER_CONFIG_WRITE reaches (R139). -/
inductive ArbReg where
  | lvlMap
  | arbCfg
deriving DecidableEq, Repr

/-- A command: one constructor for each row of the table. -/
inductive Instr where
  -- intake
  | dipHandshake (dip : Fin 16) (mv : BitVec 4) (d : BitVec 512)
  | folderSliceAnswer (dip : Fin 16) (src : BitVec 18)
  | sliceApply (o : Origin) (slice : Fin 8)
  | edgeCaught (n : Fin 1024)
  | levelChangeSettled (n : Fin 1024) (level : Bool)
  | wiredPresentation (n : Fin 1024)
  -- ranking and delivery
  | select (slice : Fin 8)
  | levelQueueEntry (lvl : Fin 16)
  | pacerTokenTaken (lvl : Fin 16)
  | arbiterDecision (ch : Fin 4)
  | gatherWindowEnd (ch : Fin 4)
  | withdrawSettle (src : BitVec 18)
  | launch (ch : Fin 4)
  | relayStageGrant (lvl : Fin 16)
  | bundleLaunch
  | wchCompletion (ch : Fin 4) (cpl : BitVec 16)
  | writeTimeout (ch : Fin 4) (tag : BitVec 12)
  | rchResponse (rs : BitVec 11) (r : BitVec 512) (rp : BitVec 32)
  | readTimeout (tag : BitVec 8)
  -- time
  | timePortValue (v : BitVec 64) (p : BitVec 4)
  | timeStall
  | soakEnd (g : Fin 4096)
  | pacerPeriodEnd (unacked0 unacked1 unacked2 unacked3 : BitVec 32)
  | minuteBoundary
  | counterSnapshotCapture
  | tackLeaseExpiry (n : Fin 1024)
  | sliceIdleGate (slice : Fin 8)
  | dipIdleGate (dip : Fin 16)
  | cryIdleRelease
  -- power, reset and scan
  | portResetNotify (p : PortReset)
  | domainReady (d : Fin 30)
  | domainPowerOffAck (d : Fin 30)
  | pwrTimeout (d : Fin 30)
  | aonPowerDown
  | coldStart
  | supplyOkRise (straps : Straps)
  | captureEntry
  | fwBootReady (img : FwImage)
  | fwBootRetry (fetchErr sigBad : Bool)
  | brownOut
  | warmResetEntry
  | warmDrainComplete (cut : Bool)
  | warmResetRelease (straps : Straps)
  | testModeSelect (on : Bool)
  | scanEntry
  | scanStopped
  | scanEnd
  | drainComplete
  | mergeEntry (src : BitVec 18) (stolen : Bool)
  | scrubWord (unit : ScrubUnit) (store : DW) (word : DW) (r : ScrubResult)
  -- errors and the core
  | errorDetected (k : ErrKind) (unit : ErrUnit) (detail : BitVec 256)
  | errorRingCopy
  | ceAutoAck (e : Fin 64)
  | lostSummary
  | coreFault (f : CoreFaultKind)
  | coreWdog
  | fwRestartReady (verified : Bool)
  -- mailboxes
  | mbxGo (m : Mbx) (data : BitVec 64) (rq : Rq)
  | mbxArgsTaken (m : Mbx)
  | mbxSlow (m : Mbx)
  | mbxNop (m : Mbx)
  | mbxInfo (m : Mbx)
  | txnBegin (m : Mbx)
  | txnCommit (m : Mbx)
  | txnAbort (m : Mbx)
  | txnStatus (m : Mbx)
  | srcStage (m : Mbx)
  | ringStage (m : Mbx)
  | gateStage (m : Mbx)
  | mcastStage (m : Mbx)
  | remoteStage (m : Mbx)
  | groupStage (m : Mbx)
  | sysFence (m : Mbx)
  | srcMask (m : Mbx)
  | srcRead (m : Mbx)
  | ringQuiesce (m : Mbx)
  | ringRead (m : Mbx)
  | tenGranule (m : Mbx)
  | tenColour (m : Mbx)
  | tenShare (m : Mbx)
  | tenGrant (m : Mbx)
  | tenHandle (m : Mbx)
  | tenStatus (m : Mbx)
  | tenSeal (m : Mbx)
  | tenDestroy (m : Mbx)
  | prfSet (m : Mbx)
  | twinStatus (m : Mbx)
  | twinWitness (m : Mbx)
  | twinRewash (m : Mbx)
  | relayRoute (m : Mbx)
  | relayFence (m : Mbx)
  | relayStatus (m : Mbx)
  | spdmMsg (m : Mbx) (req : SpdmReq)
  | fwStage (m : Mbx) (img : FwImage)
  | fwActivate (m : Mbx)
  | fwActivateReady
  | fwFallback
  | fwStatus (m : Mbx)
  | tlyLedger (m : Mbx)
  | ctrConfig (m : Mbx)
  | ctrSnapshot (m : Mbx)
  | recScan (m : Mbx)
  | recResume (m : Mbx)
  | errAck (m : Mbx) (clean : Bool) (syndrome : Byte) (entry : Fin 64)
  | errLogfailClr (m : Mbx) (clean : Bool) (syndrome : Byte) (entry : Fin 64)
  -- registers through the register target port
  | lnConsWrite (ring : BitVec 15) (a : Acc) (data : BitVec 64) (rq : Rq)
  | lnRunlvlWrite (ring : BitVec 15) (a : Acc) (data : BitVec 64) (rq : Rq)
  | lnEoiWrite (ring : BitVec 15) (a : Acc) (data : BitVec 64) (rq : Rq)
  | tkAcqRead (n : Fin 1024) (a : Acc) (rq : Rq)
  | tkRel (n : Fin 1024) (rq : Rq)
  | tkBreak (n : Fin 1024) (rq : Rq)
  | tkLeaseWrite (n : Fin 1024) (a : Acc) (data : BitVec 64) (rq : Rq)
  | slcMaskOpGo (src : BitVec 18) (value : Bool) (rq : Rq)
  | gtUpdGo (rq : Rq)
  | gateUpdate
  | dlvRstgGo (rq : Rq)
  | slcSrcGo (rq : Rq)
  | slcSrcSelWrite (a : Acc) (data : BitVec 64) (rq : Rq)
  | prfSelWrite (a : Acc) (data : BitVec 64) (rq : Rq)
  | profileChangeComplete
  | errCoreRestart (rq : Rq)
  | errRingBaseWrite (a : Acc) (data : BitVec 64) (rq : Rq)
  | consIndexWrite (r : ConsReg) (a : Acc) (data : BitVec 64) (rq : Rq)
  | arbiterConfigWrite (r : ArbReg) (a : Acc) (data : BitVec 64) (rq : Rq)
  | smtLaneCfgWrite (a : Acc) (data : BitVec 64) (rq : Rq)
  | statusFlagClear (f : FlagReg) (tag : BitVec 4) (rq : Rq)
  | counterWrite (offset : BitVec 26) (a : Acc) (data : BitVec 64) (rq : Rq)
  | registerWrite (q : BitVec 128) (qp : BitVec 8)
  -- Seam, twin and relay
  | flitReceived (f : RxFlit)
  | flitTransmit (l : Seam)
  | replayTimeout (l : Seam) (seq : BitVec 12)
  | ackTimer (l : Seam)
  | darnSend (l : Seam)
  | heartbeatSend
  | retrainStart (l : Seam)
  | retrainFail (l : Seam)
  | graceEndRinse (l : Seam)
  | laneDrop (lane : Fin 8)
  | laneAdd (lane : Fin 8)
  | sessionOpen (blk : BitVec 11) (strap : Bool)
  | sessionClose (blk : BitVec 11) (strap : Bool)
  | trainingTimeout
  | trainingRetry
  | mirrorReceived
  | dirtyReceived
  | snapshotReceived
  | forwardReceived
  | mirrorSend
  | snapshotSend
  | prepareReceived
  | voteReceived
  | voteTimeout
  | decideReceived
  | decideAckReceived
  | partnerLoss
  | takeoverEventApply (src : BitVec 18)
  | takeoverComplete
  | leaseTake
  | leaseRenew
  | leaseLapse
  | rewash
  | rewashInfoReceived
  | rewashEntriesReceived
  | rewashDoneReceived
  | tallyCkptReceived
  | bundleReceived (blk : BitVec 11) (strap : Bool)
  | inboxRelease (ring : BitVec 15)
  | relayDiscard (ring : BitVec 15)
  | bundleAckReceived (blk : BitVec 11) (strap : Bool)
  | bundleResendReceived (blk : BitVec 11) (strap : Bool)
  | relayPathFail (blk : BitVec 11) (strap : Bool)
  | relayPathRetry (blk : BitVec 11) (strap : Bool)
  | rtpRead (q : BitVec 128) (qp : BitVec 8)
  | smtLnRdyRise (lane : Fin 8)
deriving DecidableEq, Repr

end Sys2Proof
end

