-- ==== Sys2Proof/Machine/State.lean ====
section
/-! DEFINITION. The state of the block as plain data, its reset value, and the reasons a step can stop. INVENTORY.md names
the rule of the spec behind each field. -/

namespace Sys2Proof.Machine

/-- A sparse table: (index, value) pairs, indices strictly rising, no value equal to what an unlisted index holds (log entry
7). The operations are in Ops.lean. -/
abbrev Tbl (α : Type) := List (Nat × α)

/-! ### Sources -/

/-- Source states (Table 6-1). -/
inductive SState where
  | idle | pending | held | issued | active | activePending | quarantined
deriving DecidableEq, Repr, Inhabited

/-- A source entry in the layout of Table 4-1. STATE is kept in `SrcDyn`; bits [57:55] of a stored entry are zero. -/
abbrev SrcEntry := BitVec 64

/-- Purposes of a withdraw, highest first (R335). `destroy` is TEN_DESTROY's retraction, which settles as a CANCEL. -/
inductive Purpose where
  | quarantine | cancel (levelLo : Bool) | mask
deriving DecidableEq, Repr

/-- An outstanding event of a source (R104, R105). `slot` is its pool slot, none when slotless (R82); `takeover` says that a takeover made it,
not a doorbell (R200, R268). -/
structure Ev where
  epoch : BitVec 16
  slot : Option Nat
  frozen : Bool
  dup : Bool
  carry : Option SrcEntry
  capture : Bool
  takeover : Bool
deriving DecidableEq, Repr

/-- What the block holds of a source beside its entry: STATE, the intake tag (R76, R104), its events and its withdraw. -/
structure SrcDyn where
  st : SState
  line : Bool
  evMode : BitVec 2
  tagPort : BitVec 8
  ev : Option Ev
  rep : Option Ev
  withdraw : Option Purpose
deriving DecidableEq, Repr

/-- A pool slot in use (R77, R81); `lost` marks a slot that a takeover made (R201). A retired slot (R289) is not allocated. -/
inductive Slot where
  | used (cookie : BitVec 28) (folds : BitVec 24) (time : BitVec 64) (lost : Bool)
  | retired
deriving DecidableEq, Repr

/-- A shadow entry with the epoch of its flip (R184). -/
structure Shadow where
  entry : SrcEntry
  epoch : BitVec 16
deriving DecidableEq, Repr

/-- A message on its way to a slice: n doorbells of one source (R76, R77). `wired` messages and forwarded ones are not
checked against PORT (R68, R203). -/
structure Msg where
  src : BitVec 18
  kind : BitVec 4
  n : Nat
  first : BitVec 28
  last : BitVec 28
  time : BitVec 64
  port : BitVec 8
  reqid : BitVec 16
  colour : BitVec 8
  relayed : Bool
  srcBlock : BitVec 11
  epoch : BitVec 16
  noPort : Bool
deriving DecidableEq, Repr

/-- An entry of a Folder: the message in flight and its accumulator (R75). -/
structure FoldEnt where
  m : Msg
  count : Nat
  first : BitVec 28
  last : BitVec 28
  time : BitVec 64
  reqid : BitVec 16
  colour : BitVec 8
deriving DecidableEq, Repr

/-- An outstanding FENCE (R189): `ahead` counts, per queue, the messages still ahead of its markers; `carry` is the entry of its own epoch,
once that entry has been merged away; `chosen` the member ring it has chosen of a multicast set. -/
structure Fence where
  id : Nat
  src : BitVec 18
  token : BitVec 28
  time : BitVec 64
  epoch : BitVec 16
  ahead : Tbl Nat
  applied : Bool
  requested : Bool
  carry : Option SrcEntry
  chosen : Option (BitVec 15)
deriving DecidableEq, Repr

/-- A handshake held at a DIP's pins, REQ high and ACK low; `stalled` once DIP_STALL_CNT has counted it (R80). -/
structure Held where
  mv : BitVec 4
  d : BitVec 512
  stalled : Bool
deriving DecidableEq, Repr

/-- A level sampler (R70): the settled level, the level last presented, the outstanding presentation. -/
structure Sampler where
  level : Bool
  presented : Bool
  out : Option Bool
deriving DecidableEq, Repr

/-- Everything intake holds. -/
structure Intake where
  held : Tbl (List Held)
  folder : Tbl (List FoldEnt)
  queue : Tbl (List Msg)
  fences : List Fence
  edge : Tbl Nat
  sampler : Tbl Sampler
  lastHandshake : Tbl (BitVec 64)
  lastApply : Tbl (BitVec 64)
deriving DecidableEq, Repr

/-- Everything the slices hold. `maskRun` is the source of the running SLC_MASK_OP, whose GO reads 1. -/
structure Slices where
  main : Tbl SrcEntry
  dyn : Tbl SrcDyn
  pool : Tbl (Option Slot)
  shadow : Tbl (Option Shadow)
  owner : Tbl (BitVec 8)
  maskSrc : BitVec 18
  maskValue : Bool
  maskRun : Option (BitVec 18)
  maskResult : BitVec 2
  selSrc : BitVec 18
  staged : Option SrcEntry
  srcResult : BitVec 2
deriving DecidableEq, Repr

/-! ### Delivery -/

/-- A ring entry (Table 7-1). -/
structure RingEnt where
  w0 : Reg64
  w1 : Reg64
  w2 : Reg64
  w3 : Reg64
deriving DecidableEq, Repr

/-- An object held in two versions: in force with the epoch X of its flip, and prior (R188). -/
structure Ver (α : Type) where
  cur : α
  x : BitVec 16
  prior : α
deriving DecidableEq, Repr

/-- A multicast set entry (Table 7-11). -/
structure McSet where
  ten : BitVec 8
  members : List (BitVec 15)
deriving DecidableEq, Repr

/-- A ring half of this block (R123, R129). `rsize32` is RSIZE 32; `restarts` numbers its restarts (R140). `rgenUsed` says that `rgen` has been under a record key since the sealing (R256). `scanOwed` is the
SCAN_RESUME it owes (R121): SEQ, and the time when the scan ended. -/
structure Half where
  cons : BitVec 31
  prod : BitVec 31
  arm : Bool
  nlvl : Option (BitVec 4)
  lastLvl : BitVec 4
  runlvl : BitVec 5
  resv : Nat
  full : Bool
  faulted : Bool
  quiesced : Bool
  seq : BitVec 16
  rsize32 : Bool
  recSeq : BitVec 32
  seqHi : BitVec 32
  rgen : BitVec 16
  rgenUsed : Bool
  restarts : Nat
  scanOwed : Option (BitVec 16 × BitVec 64)
  quarantined : Bool
  everEnabled : Bool
deriving DecidableEq, Repr

/-- A record as it travels in a bundle or the inbox: DW0 to DW3 and TS_HI (Table 12-9). -/
structure RelRec where
  dw0 : DW
  dw1 : DW
  dw2 : DW
  dw3 : DW
  tsHi : DW
deriving DecidableEq, Repr

/-- What a request of DLV is for. -/
inductive ReqKind where
  | event (src : BitVec 18)
  | member (src : BitVec 18) (k : Nat)
  | residue (src : BitVec 18) (k : Nat)
  | fence (id : Nat)
  | relayed (r : RelRec) (ten : BitVec 8)
  | scanResume
deriving DecidableEq, Repr

/-- Where a request goes: a half of this block, a multicast set, or a ring of another block (R113, R235). -/
inductive Dest where
  | half (r : BitVec 15)
  | mcast (set : Nat)
  | remote (blk : BitVec 11) (ring : BitVec 15)
deriving DecidableEq, Repr

/-- A request in DLV. `age` orders waiting (R136), `sel` the order of select (R114); `res` says that it holds a
reservation (R130). -/
structure Req where
  kind : ReqKind
  lvl : BitVec 4
  dest : Dest
  epoch : BitVec 16
  age : Nat
  sel : Nat
  res : Bool
deriving DecidableEq, Repr

/-- The running expansion of a multicast event (R143, R144); `sel` is its place in the order of select, `launched` the time at which its
first member record launched. -/
structure McRun where
  rings : List (BitVec 15)
  residue : List Nat
  launched : Option (BitVec 64)
  sel : Nat
deriving DecidableEq, Repr

/-- What an own write or an outstanding write belongs to. -/
inductive WTarget where
  | ring (r : BitVec 15)
  | ledger (t : BitVec 8)
  | logEntry (e no : Nat)
  | logOther
  | snapshot
deriving DecidableEq, Repr

/-- A Mending Log entry in use (Table 16-3). `copyNo` numbers its latest copy asked for, 0 for none; `copyOk` says that this
copy has completed OK (R290). -/
structure LogEnt where
  kind : Byte
  cls : BitVec 2
  multi : Bool
  escalated : Bool
  unit : ErrUnit
  acked : Bool
  count : BitVec 24
  lseq : BitVec 32
  first : BitVec 64
  last : BitVec 64
  detail : BitVec 256
  form : BitVec 4
  copyNo : Nat
  copyOk : Bool
deriving DecidableEq, Repr

/-- A copy that waits for room in the error ring (R290): of an entry, of a LOGFAIL register, or a bypass entry. -/
inductive CopyItem where
  | entry (e no : Nat)
  | logfail (n : Nat)
  | bypass (w : LogEnt)
deriving DecidableEq, Repr

/-- An own write of the block waiting on WCH0 at input 15 (R136); `copy` is what an error-ring copy copies (R290). -/
structure Own where
  cls : BitVec 3
  target : WTarget
  addr : BitVec 64
  data : BitVec 512
  ten : BitVec 8
  age : Nat
  copy : Option CopyItem
deriving DecidableEq, Repr

/-- A granted write that has not launched: its half, its records, the half's restarts at the grant (R140), an open gather window
(R56), the epoch of the granted record and the ring's version that it selects: a later expert install does not reach it (R125, R188). -/
inductive Grant where
  | recs (ring : BitVec 15) (reqs : List Req) (restart : Nat) (gather : Bool) (epoch : BitVec 16) (ent : RingEnt)
  | own (o : Own)
deriving DecidableEq, Repr

/-- A notification that waits for a free completion tag of its channel (R30, R133). -/
structure Note where
  ring : BitVec 15
  lvl : BitVec 4
  ent : RingEnt
deriving DecidableEq, Repr

/-- An outstanding write of a channel (R29, R30): `late` after its time-out; `stale` when its half has become FAULTED since
its launch (R146). -/
structure Outst where
  cls : BitVec 3
  target : WTarget
  addr : BitVec 64
  time : BitVec 64
  late : Bool
  stale : Bool
deriving DecidableEq, Repr

/-- Running state of a hold-off group (R149); `since` is the count of accepted time values at the onset. -/
structure GrpRun where
  count : Nat
  soaking : Bool
  endAt : BitVec 64
  since : Nat
deriving DecidableEq, Repr

/-- Everything DLV holds. Buckets hold 10^-9 of a record for each unit of (M records/s · ns / 1000), so fractions are exact: one record is
1,000,000 units (R156). `ceil` is the effective ceiling in sixteenths of an M record/s (R160). -/
structure Dlv where
  ring : Tbl (Ver RingEnt)
  mcast : Tbl (Ver McSet)
  remote : Tbl (Ver Reg64)
  half : Tbl Half
  group : Tbl Reg64
  grun : Tbl GrpRun
  sel : Tbl (List Req)
  lq : Tbl (List Req)
  pace : Tbl (List Req)
  hamper : List Req
  members : List Req
  mc : Tbl (Option McRun)
  own : List Own
  grants : Tbl (List Grant)
  count : Tbl Nat
  outst : Tbl (Option Outst)
  noteQ : Tbl (List Note)
  lvlMap : Reg64
  nth : BitVec 8
  floor : BitVec 16
  short : Bool
  shortTag : BitVec 4
  lastShort : Bool
  ceil : Nat
  bucket : Tbl Nat
  poolBucket : Nat
  periodStart : BitVec 64
  periodRecs : Nat
  starved : Tbl Nat
  rstgSel : BitVec 15
  rstg : Option RingEnt
  rstgResult : BitVec 2
  qMcast : List Nat
  qRemote : List Nat
  qGroup : List Nat
deriving DecidableEq, Repr

/-! ### Gates -/

/-- A region (Table 5-1). -/
structure Region where
  lo : Reg64
  hi : Reg64
  attr : Reg64
deriving DecidableEq, Repr

/-- A request of the register target port as the rows use it (Table 2-7). -/
structure RtpReq where
  offset : BitVec 26
  write : Bool
  size8 : Bool
  data : BitVec 64
  rq : Rq
deriving DecidableEq, Repr

/-- Everything the gates hold; regions are keyed by 4096 · gate + index (00 DIP, 01 register, 10 delivery). `rtpHeld` are the requests
that wait at the register target port, RTP_REQ high and RTP_ACK low, in the order of their intake (R33, R315). -/
structure Gates where
  region : Tbl Region
  qRegion : List Nat
  stgSel : BitVec 14
  staged : Tbl (Option Region)
  go : Bool
  rtpHeld : List RtpReq
  violLast : Tbl (BitVec 256)
  prevColour : Option (BitVec 8)
deriving DecidableEq, Repr

/-! ### Mailboxes -/

/-- The staged entries of a transaction (R177). A region is keyed as in `Gates`. -/
structure Txn where
  srcs : Tbl SrcEntry
  rings : Tbl RingEnt
  regions : Tbl Region
  mcasts : Tbl McSet
  remotes : Tbl Reg64
  groups : Tbl Reg64
deriving DecidableEq, Repr

/-- A command as copied at step 3 of Table 9-7, or inside a secured message. -/
structure Cmd where
  opcode : BitVec 16
  seq : BitVec 16
  argLen : Nat
  note : Bool
  args : List DW
deriving DecidableEq, Repr

/-- What a running command still waits for. `taken` is a command whose checks have passed and whose row has not come yet; `peer` says that
the partner has not performed it yet (R196), and a `word` is what TWIN_WITNESS has read while the partner stores the address (R204). -/
inductive Busy where
  | idle
  | go
  | taken
  | fence (ahead : Tbl Nat)
  | quiesce (ring : BitVec 15)
  | mask (src : BitVec 18) (peer : Bool)
  | scan
  | resume (first count : Nat)
  | resumeEnd
  | profile
  | commit
  | commitWait
  | relayFence (blk : BitVec 11) (bundles : List (BitVec 32 × Bool))
  | witness (addr : BitVec 64) (word : Option (BitVec 64))
  | seal
  | destroy (ten : BitVec 8)
  | rewash
  | activateWait
  | activate
deriving DecidableEq, Repr

/-- A journal entry (R168); `bytes` is the length of the result. -/
structure Journal where
  opcode : BitVec 16
  seq : BitVec 16
  status : BitVec 8
  res : List DW
  bytes : Nat
deriving DecidableEq, Repr

/-- A mailbox (Tables 9-1 to 9-5) with its transaction and SPDM session. `secured` is the command inside the running secured
message, `plain` the plaintext of the latest secured response, STATUS and result
(R258); `handshake` says that a KEY_EXCHANGE waits for its FINISH. `sessId` is the session's ID as the latest KEY_EXCHANGE set it, `seqIn` and
`seqOut` the sequence numbers of the next secured message in each direction, which no message carries (R258). -/
structure Mailbox where
  opcode : BitVec 16
  seq : BitVec 16
  argLen : BitVec 11
  note : Bool
  go : Bool
  status : BitVec 8
  rspSeq : BitVec 16
  resLen : BitVec 10
  done : Bool
  replay : Bool
  noteSrc : BitVec 18
  noteValid : Bool
  arg : Tbl DW
  res : List DW
  held : Option Cmd
  cmd : Option Cmd
  secured : Option Cmd
  busy : Busy
  journal : Option Journal
  txn : Option Txn
  aborted : Bool
  session : Option Nat
  handshake : Bool
  sessId : DW
  seqIn : BitVec 64
  seqOut : BitVec 64
  plain : Option (BitVec 8 × List DW)
  slow : Bool
deriving DecidableEq, Repr

/-- A tenant record (Table 14-1); `retired` under R263. -/
structure Tenant where
  colour : BitVec 8
  coloured : Bool
  handle : DW
  share : DW
  ctrUser : Bool
  selfCfg : Bool
  isSealed : Bool
  session : Option Nat
  retired : Bool
deriving DecidableEq, Repr

/-- Why a commit runs: a transaction of a mailbox, or TEN_DESTROY (R263). -/
inductive CommitWhat where
  | txn (t : Txn)
  | destroy (ten : BitVec 8)
deriving DecidableEq, Repr

/-- What a commit past admission waits for: the renewal of R206, the partner's vote, or the partner's acknowledgement after the flip
(Table 10-2). -/
inductive CStage where
  | renew | vote | ack
deriving DecidableEq, Repr

/-- A commit past admission (Table 10-2); `merge` is the number of source entries to merge. -/
structure CommitRun where
  mbx : Mbx
  what : CommitWhat
  epoch : BitVec 16
  sentAt : BitVec 64
  stage : CStage
  merge : Nat
deriving DecidableEq, Repr

/-- A transaction that this block has voted YES for (R179). -/
structure Prepared where
  what : CommitWhat
  epoch : BitVec 16
deriving DecidableEq, Repr

/-- A command that the partner is asked to perform too (R196, R204), until it votes: its mailbox, unless a restart has answered it, and the
epoch that the request carries. -/
structure Ask where
  mbx : Option Mbx
  epoch : BitVec 16
deriving DecidableEq, Repr

/-- A command of the partner that this block has performed and not voted for: the source whose withdraw it waits for, and the epoch of the
request. -/
structure Asked where
  src : Option (BitVec 18)
  epoch : BitVec 16
deriving DecidableEq, Repr

/-- Twifomon's phase. -/
inductive FwPhase where
  | boot | ready | restarting | exchanging | halted
deriving DecidableEq, Repr

/-- Twifomon, the Maluri core and the keys in CRY. `voteDestroy` is a TEN_DESTROY of the partner that this block performs before it
votes (R263). Keys: record keys by tenant (R254), ledger keys by tenant with the operator's at 256
(R275). -/
structure Fw where
  phase : FwPhase
  mbxIf : BitVec 8
  stage : BitVec 3
  fetchErr : Bool
  sigBad : Bool
  attempts : BitVec 8
  version : DW
  svn : BitVec 64
  image : BitVec 384
  manifest : BitVec 384
  staged : Option FwImage
  stagedOk : Bool
  fallback : Option FwImage
  chain : BitVec 384
  extends_ : BitVec 16
  exchanges : BitVec 16
  restarts : List (BitVec 64)
  coreRestart : Bool
  activateMbx : Option Mbx
  commit : Option CommitRun
  prepared : Option Prepared
  voteDestroy : Option (BitVec 8 × BitVec 16)
  asks : List Ask
  asked : List Asked
  committed : Bool
  recKey : Tbl (Option (BitVec 256))
  ledKey : Tbl (Option (BitVec 256))
  qKey : List Nat
  cryIdle : BitVec 64
deriving DecidableEq, Repr

/-! ### Twin, Seam, relay -/

/-- Pair states (Table 11-1). -/
inductive Pair where
  | training | paired | degraded | alone | solo | rewash
deriving DecidableEq, Repr

/-- Link states (R222). -/
inductive LinkState where
  | down | training | up | retrain | grace
deriving DecidableEq, Repr

/-- A message above the link layer (Table 12-2). -/
inductive SMsg where
  | mirror (src : BitVec 18) (st : BitVec 2)
  | dirty (range : BitVec 12)
  | snapshot (range : BitVec 12) (v : BitVec 128)
  | forward (m : BitVec 128)
  | fw (kind : BitVec 8) (dws : List DW)
  | bundle (sealed_ : Bool) (b : BitVec 2880)
  | bundleAck (blk : BitVec 11) (strap : Bool) (bseq : BitVec 32)
  | bundleResend (blk : BitVec 11) (strap : Bool) (bseq : BitVec 32)
deriving DecidableEq, Repr

/-- A message received with the number of flit buffers that taking it frees (R220). -/
structure RxMsg where
  m : SMsg
  frees : Nat
deriving DecidableEq, Repr

/-- A sequenced flit in the replay buffer (R217): `times` counts its replays. -/
structure RepFlit where
  seq : BitVec 12
  rsp : Bool
  payload : BitVec 960
  times : Nat
deriving DecidableEq, Repr

/-- A sequenced flit held behind a hole (R218). -/
structure HeldFlit where
  seq : BitVec 12
  rsp : Bool
  payload : BitVec 960
deriving DecidableEq, Repr

/-- One side of a link or session (file 12). `resendQ` are the flits that a retrain sends again, which count as no replay (R223); `due` says
that a retrain is due (R217, R218), `proving` that one awaits the partner's next flit (R223). -/
structure Link where
  st : LinkState
  txSeq : BitVec 12
  exp : BitVec 12
  replay : List RepFlit
  replayQ : List (BitVec 12)
  resendQ : List (BitVec 12)
  due : Bool
  proving : Bool
  holes : List (BitVec 12)
  heldF : List HeldFlit
  bad : Nat
  fails : Nat
  crReq : BitVec 32
  crRsp : BitVec 32
  sentReq : BitVec 32
  sentRsp : BitVec 32
  grantReq : BitVec 32
  grantRsp : BitVec 32
  owedReq : Nat
  owedRsp : Nat
  ackSent : BitVec 12
  sinceAck : Nat
  ackDue : Bool
  ctl : List (BitVec 960)
  resume : Bool
  trained : Bool
  mismatch : Bool
  txReq : List SMsg
  txRsp : List SMsg
  rxReq : List RxMsg
  rxRsp : List RxMsg
  asmReq : List DW
  asmRsp : List DW
  fragReq : List (BitVec 960)
  fragRsp : List (BitVec 960)
deriving DecidableEq, Repr

/-- The partner's last heartbeat (Table 12-4). -/
structure Heartbeat where
  state : BitVec 3
  prepared : Bool
  lease : Bool
  fatal : Bool
  fwHalted : Bool
  epoch : BitVec 16
deriving DecidableEq, Repr

/-- Step 2 of Table 11-6: what a block tells its partner (kind 0x10): `issued` for TWIN_REWASH (R208), `retired` the tenants whose
destroy it carries (R263). -/
structure RewashInfo where
  epoch : BitVec 16
  committed : Bool
  lease : Bool
  issued : Bool
  word : Option (BitVec 64)
  retired : BitVec 256
  digests : List (BitVec 384)
deriving DecidableEq, Repr

/-- A running Rewash (Table 11-6): who asked, what the partner told, whether this block keeps, whether its REWASH_DONE has left and the
partner's has come. -/
structure RewashRun where
  byCommand : Option Mbx
  info : Option RewashInfo
  keeper : Option Bool
  sent : Bool
  done : Bool
deriving DecidableEq, Repr

/-- What a read-channel request was made for (R31); `leaseCommit` is the renewal of a commit's step 3 (R206). -/
inductive RdWhat where
  | leaseRead
  | leaseTake (compare swap : BitVec 64)
  | leaseRenew (compare swap : BitVec 64)
  | leaseCommit (compare swap : BitVec 64)
  | leaseRelease (compare swap : BitVec 64)
  | witness (m : Mbx) (addr : BitVec 64)
deriving DecidableEq, Repr

/-- An outstanding read-channel request. -/
structure Rd where
  what : RdWhat
  time : BitVec 64
deriving DecidableEq, Repr

/-- A 128-byte Ticket as its 32 DWs (Table 15-3). -/
abbrev Ticket := List DW

/-- Everything of pairing and Seam-T. `snapPhase` is set from the moment a DEGRADED block's queue is short and its DIRTY
messages have left, until it is PAIRED again or the queue reaches the threshold (R198), and in step 4 of a Rewash. `holder` marks a block
that counts as the holder (R206). Lanes (R226 to R228): `lanes` is the active transmit set and `txNext` the one that follows it at the next
round that begins with a flit; `rxLanes`, `rxPos` and `rxRound` say where the next quarter is received, `rxQ` holds each lane's words that
wait for it, `rxFlit` the quarters of the flit under assembly with their LCHK; `deskewed` are the lanes on which the partner's training words
have come; `failedTrain` the dropped lanes that have not been clean since their quiet time began, `addedAt` and `outUntil` the times of the
1 s hold-out. -/
structure Twin where
  state : Pair
  absent : Bool
  holder : Bool
  lease : Bool
  takeover : Bool
  tag : BitVec 4
  takeovers : BitVec 16
  mirrorQ : List SMsg
  notice : List Nat
  txDirty : List Nat
  snapPhase : Bool
  view : Tbl (BitVec 2)
  rxDirty : List Nat
  partner : Option Heartbeat
  takeLeft : Option (List Nat)
  rewash : Option RewashRun
  witness : Option (BitVec 64)
  word : Option (BitVec 64)
  wordAt : BitVec 64
  renewAt : BitVec 64
  rd : Tbl (Option Rd)
  ckpt : Tbl (Option Ticket)
  ckptWrite : Bool
  lnEn : BitVec 8
  lnRdy : BitVec 8
  lanes : BitVec 8
  ownDrop : BitVec 8
  peerDrop : BitVec 8
  laneCfg : BitVec 24
  laneWords : Tbl Nat
  laneBad : Tbl Nat
  txPos : Nat
  round : BitVec 4
  txNext : Option Byte
  rxLanes : Byte
  rxPos : Nat
  rxRound : BitVec 4
  rxQ : Tbl (List (BitVec 272))
  rxFlit : List (BitVec 256 × Bool)
  deskewed : Byte
  failedTrain : Byte
  addedAt : Tbl (BitVec 64)
  outUntil : Tbl (BitVec 64)
deriving DecidableEq, Repr

/-- A bundle kept until it is acknowledged (R232, R239). -/
structure Bundle where
  blk : BitVec 11
  strap : Bool
  ring : BitVec 15
  bseq : BitVec 32
  handle : DW
  isSealed : Bool
  recs : List RelRec
  srcs : List (BitVec 18)
  resends : Nat
deriving DecidableEq, Repr

/-- A bundle that a receiver refused and has not had again (R232, R242): its session, its BSEQ, how often it was refused, and whether the
session has come UP anew since. -/
structure Awaited where
  sess : Nat
  bseq : BitVec 32
  times : Nat
  anew : Bool
deriving DecidableEq, Repr

/-- A bundle in the inbox (R240); `key` is the place in order of a record that has come back to it, `sess` the session and BSEQ that brought
the bundle. -/
structure InBundle where
  key : Option Nat
  sess : Option (Nat × BitVec 32)
  ring : BitVec 15
  ten : BitVec 8
  recs : List RelRec
  epoch : BitVec 16
  badSince : Option (BitVec 64)
deriving DecidableEq, Repr

/-- Everything of Seam-R relay. -/
structure Relay where
  stage : List Req
  bundles : List Bundle
  bseq : Tbl (BitVec 32)
  accepted : Tbl (List (BitVec 32))
  nextIn : Tbl (BitVec 32)
  awaited : List Awaited
  inbox : List InBundle
  route : Tbl (Option (BitVec 16 × BitVec 3))
  failed : List (BitVec 11 × Bool)
  resent : Tbl DW
  sessSel : BitVec 12
deriving DecidableEq, Repr

/-! ### AON: tally, log, Tacks, time, power -/

/-- A tenant's tally (Table 15-1) with its Ticket state (R272, R273); `span` is the minutes count at its last Ticket. -/
structure Tally where
  accepted : BitVec 48
  folded : BitVec 48
  delivered : BitVec 48
  notify : BitVec 48
  viol : BitVec 48
  wsum : BitVec 56
  sat : Bool
  carry : BitVec 16
  seq : BitVec 32
  span : Nat
deriving DecidableEq, Repr

/-- A ledger ring (R276, R277). -/
structure Ledger where
  base : BitVec 64
  code : BitVec 4
  cons : BitVec 31
  prod : BitVec 31
  en : Bool
  faulted : Bool
deriving DecidableEq, Repr

/-- Everything of the tally. `minutes` counts boundaries and minutes skipped since cold start (R273). -/
structure Tly where
  tally : Tbl Tally
  ledger : Tbl Ledger
  weight : Tbl Reg64
  weightNow : Tbl Reg64
  minuteDue : Option (BitVec 64)
  minutes : Nat
  final : List Ticket
deriving DecidableEq, Repr

/-- A performance counter (Table 15-7). -/
structure PCtr where
  count : BitVec 48
  wrap : Bool
  tag : BitVec 4
deriving DecidableEq, Repr

/-- Counters of class K by register offset, performance counters and snapshots. -/
structure Ctr where
  cnt : Tbl Count
  sel : Tbl Reg64
  val : Tbl PCtr
  snapAddr : BitVec 64
  snapInt : DW
  snapSeq : BitVec 64
  snapNext : BitVec 64
  snapStopped : Bool
deriving DecidableEq, Repr

/-- The Mending Log and the error ring. -/
structure Log where
  ents : Tbl (Option LogEnt)
  lost : Tbl (BitVec 16)
  lseq : BitVec 32
  copyQ : List CopyItem
  copyCtr : Nat
  base : BitVec 52
  size : BitVec 4
  cons : BitVec 31
  prod : BitVec 31
  faulted : Bool
  bypass : Bool
  ucbOpen : Bool
  lostTotal : BitVec 16
  logfail : Tbl Reg64
  fatal : Bool
  fault : Bool
deriving DecidableEq, Repr

/-- A Tack's state (Table 16-10). -/
inductive TkState where
  | free | held | broken
deriving DecidableEq, Repr

/-- A Tack. `endAt` is the deadline of the running lease (R297). -/
structure Tack where
  st : TkState
  cause : BitVec 2
  ten : BitVec 8
  port : BitVec 8
  reqid : BitVec 16
  gen : BitVec 24
  lease : BitVec 32
  endAt : Option (BitVec 64)
deriving DecidableEq, Repr

/-- Phases of power and reset (files 02 and 17). -/
inductive Phase where
  | supplyWait | init | run | drain | held | down
deriving DecidableEq, Repr

/-- Power, reset and pins. `want` marks the domains that are requested again once their PWR_ON_ACK is low (R40); `late` those whose request
has been logged as PWR_TIMEOUT (R301). -/
structure Pwr where
  phase : Phase
  supplyOk : Bool
  rstWarmN : Bool
  brown : Bool
  straps : Straps
  on : BitVec 30
  req : BitVec 30
  ack : BitVec 30
  want : BitVec 30
  late : BitVec 30
  prstAck : BitVec 64
  aonDnAck : Bool
  steerLow : Bool
  last : BitVec 2
  drainCut : Bool
  warms : BitVec 16
deriving DecidableEq, Repr

/-- Registers of the global page that belong to no unit above. `prfNext` is the profile that a running change goes to: a write of REQ
does not disturb it (R60). -/
structure Glb where
  capture : Bool
  test : Bool
  recovery : Bool
  stopped : Bool
  ranking : Bool
  scanSeq : BitVec 16
  epoch : BitVec 16
  draining : Bool
  merging : Bool
  prfReq : BitVec 2
  prfActive : BitVec 2
  prfBusy : Bool
  prfNext : BitVec 2
  now : BitVec 64
  ticks : Nat
  stall : Bool
  stalled : Bool
  stallTag : BitVec 4
  stalls : BitVec 16
deriving DecidableEq, Repr

/-- The response of the register target port (Table 2-7). -/
inductive RtpStatus where
  | ok | fault | parity
deriving DecidableEq, Repr

/-- What the last command drove on an output port (file 02), parity included (Table 2-2a): WCHn_C, WCHn_D and WCHn_DP; RTP_R and
RTP_RP; RCH_C and RCH_CP. -/
inductive Out where
  | dipAck (dip : Nat)
  | write (ch : Nat) (cmd : BitVec 128) (data : BitVec 512) (dp : BitVec 32)
  | rtp (r : BitVec 66) (rp : BitVec 4)
  | read (c : BitVec 256) (cp : BitVec 16)
  | lanes (words : List (Nat × BitVec 272))
  | stream (f : BitVec 1024) (h : BitVec 64)
deriving DecidableEq, Repr

/-- The state of the block. -/
structure State where
  pending : List Instr
  out : List Out
  stepNo : Nat
  freeCtr : Nat
  pwr : Pwr
  glb : Glb
  intake : Intake
  slc : Slices
  dlv : Dlv
  gates : Gates
  mbx : Tbl Mailbox
  tenant : Tbl Tenant
  fw : Fw
  twin : Twin
  link : Tbl Link
  relay : Relay
  tly : Tly
  ctr : Ctr
  log : Log
  tack : Tbl Tack
deriving DecidableEq, Repr

/-- No meaning ends in a fault: the spec gives every command an effect, and an error is logged and the block goes on (R283). -/
inductive Fault : Type where
deriving DecidableEq, Repr

/-- Reasons a command has no meaning. -/
inductive Refusal where
  /-- Raised by exec's arm of a command that this model does not give a meaning; safe. -/
  | notModelled (mnemonic : String)
deriving DecidableEq, Repr

/-! ### Reset -/

/-- Straps before they are first sampled (DESIGN CHOICE, log entry 2). -/
def Straps.zero : Straps := { twin := false, blknum := 0, lanes := 0, budget := 0, fwBase := 0 }

/-- Power and pins at cold start (Table 17-3, step 1; Table 2-12). -/
def Pwr.reset : Pwr :=
  { phase := .supplyWait, supplyOk := false, rstWarmN := true, brown := false, straps := Straps.zero, on := 1, req := 0,
    ack := 0, want := 0, late := 0, prstAck := 0, aonDnAck := false, steerLow := false, last := 0, drainCut := false, warms := 0 }

/-- Table 6-10, Table 10-4, Table 3-4, Tables 8-2 to 8-4: reset values. -/
def Glb.reset : Glb :=
  { capture := true, test := false, recovery := false, stopped := true, ranking := false, scanSeq := 0, epoch := 0,
    draining := false, merging := false, prfReq := 0, prfActive := 0, prfBusy := false, prfNext := 0, now := 0, ticks := 0,
    stall := false, stalled := false, stallTag := 0, stalls := 0 }

/-- Intake at cold start: empty (Table 17-6). -/
def Intake.reset : Intake :=
  { held := [], folder := [], queue := [], fences := [], edge := [], sampler := [], lastHandshake := [], lastApply := [] }

/-- The slices at cold start: the source entries of R305 are what an unlisted index of `main` holds. -/
def Slices.reset : Slices :=
  { main := [], dyn := [], pool := [], shadow := [], owner := [], maskSrc := 0, maskValue := false, maskRun := none,
    maskResult := 0, selSrc := 0, staged := none, srcResult := 0 }

/-- DLV at cold start: tables zero, queues and buckets empty (Table 17-6), registers as Tables 7-9, 7-10, 8-5, 8-6. -/
def Dlv.reset : Dlv :=
  { ring := [], mcast := [], remote := [], half := [], group := [], grun := [], sel := [], lq := [], pace := [],
    hamper := [], members := [], mc := [], own := [], grants := [], count := [], outst := [], noteQ := [],
    lvlMap := 0xFEDCBA9876543210#64, nth := 0x10#8, floor := 0x0040#16, short := false, shortTag := 0, lastShort := false,
    ceil := 51200, bucket := [], poolBucket := 0, periodStart := 0, periodRecs := 0,
    starved := [], rstgSel := 0, rstg := none, rstgResult := 0, qMcast := [], qRemote := [], qGroup := [] }

/-- The gates at cold start: the fused default (Table 5-3) is what an unlisted index of `region` holds. -/
def Gates.reset : Gates :=
  { region := [], qRegion := [], stgSel := 0, staged := [], go := false, rtpHeld := [], violLast := [], prevColour := none }

/-- Twifomon before boot (Table 17-4, Table 14-7). -/
def Fw.reset : Fw :=
  { phase := .boot, mbxIf := 0, stage := 0, fetchErr := false, sigBad := false, attempts := 0, version := 0, svn := 0,
    image := 0, manifest := 0, staged := none, stagedOk := false, fallback := none, chain := 0, extends_ := 0,
    exchanges := 0, restarts := [], coreRestart := false, activateMbx := none, commit := none, prepared := none, voteDestroy := none,
    asks := [], asked := [], committed := false, recKey := [], ledKey := [], qKey := [], cryIdle := 0 }

/-- The twin side at cold start (Table 11-2, Table 12-8). -/
def Twin.reset : Twin :=
  { state := .training, absent := false, holder := false, lease := false, takeover := false, tag := 0, takeovers := 0, mirrorQ := [],
    notice := [], txDirty := [], snapPhase := false, view := [], rxDirty := [], partner := none, takeLeft := none, rewash := none,
    witness := none, word := none, wordAt := 0, renewAt := 0, rd := [], ckpt := [], ckptWrite := false, lnEn := 0,
    lnRdy := 0, lanes := 0, ownDrop := 0, peerDrop := 0, laneCfg := 0xFF0A08#24, laneWords := [], laneBad := [],
    txPos := 0, round := 0, txNext := none, rxLanes := 0, rxPos := 0, rxRound := 0, rxQ := [], rxFlit := [], deskewed := 0,
    failedTrain := 0, addedAt := [], outUntil := [] }

/-- Relay at cold start. -/
def Relay.reset : Relay :=
  { stage := [], bundles := [], bseq := [], accepted := [], nextIn := [], awaited := [], inbox := [], route := [], failed := [],
    resent := [], sessSel := 0 }

/-- Tally at cold start (R269); the weights of Table 15-2 are what an unlisted index holds. -/
def Tly.reset : Tly :=
  { tally := [], ledger := [], weight := [], weightNow := [], minuteDue := none, minutes := 0, final := [] }

/-- Counters at cold start. -/
def Ctr.reset : Ctr :=
  { cnt := [], sel := [], val := [], snapAddr := 0, snapInt := 0, snapSeq := 0, snapNext := 0, snapStopped := true }

/-- The Mending Log at cold start: empty (Table 17-6, Tables 16-5 and 16-6). -/
def Log.reset : Log :=
  { ents := [], lost := [], lseq := 0, copyQ := [], copyCtr := 0, base := 0, size := 0, cons := 0, prod := 0, faulted := false,
    bypass := false, ucbOpen := false, lostTotal := 0, logfail := [], fatal := false, fault := false }

/-- The block right after cold start: VDD_AON valid, AON at its reset values (R303, Table 17-3 step 1). -/
def State.reset : State :=
  { pending := [], out := [], stepNo := 0, freeCtr := 0, pwr := Pwr.reset, glb := Glb.reset, intake := Intake.reset,
    slc := Slices.reset, dlv := Dlv.reset, gates := Gates.reset, mbx := [], tenant := [], fw := Fw.reset,
    twin := Twin.reset, link := [], relay := Relay.reset, tly := Tly.reset, ctr := Ctr.reset, log := Log.reset, tack := [] }

end Sys2Proof.Machine
end

