-- ==== Sys2Proof/Machine/Ops.lean ====
section
/-! DEFINITION. The operations on tables of State and one accessor pair per table: what an unlisted index holds is said
here, once for each table. -/

namespace Sys2Proof.Machine

/-! ### Tables -/

/-- The value at index `k`: the listed one, or what an unlisted index holds. -/
def Tbl.get {α : Type} (d : Nat → α) : Tbl α → Nat → α
  | [], k => d k
  | (i, v) :: r, k => if i = k then v else Tbl.get d r k

/-- The table without index `k`. -/
def Tbl.erase {α : Type} (t : Tbl α) (k : Nat) : Tbl α := t.filter fun p => p.1 ≠ k

/-- The table with `k` listed at its place in the rising order. -/
def Tbl.insert {α : Type} (k : Nat) (v : α) : Tbl α → Tbl α
  | [] => [(k, v)]
  | (i, w) :: r => if k < i then (k, v) :: (i, w) :: r else (i, w) :: Tbl.insert k v r

/-- The table with `v` at index `k`; a value equal to the unlisted one is not listed. -/
def Tbl.set {α : Type} [DecidableEq α] (d : Nat → α) (t : Tbl α) (k : Nat) (v : α) : Tbl α :=
  if v = d k then t.erase k else Tbl.insert k v (t.erase k)

/-- The canonical form: indices strictly rising, no value equal to the unlisted one. -/
def Tbl.wf {α : Type} [DecidableEq α] (d : Nat → α) (t : Tbl α) : Prop :=
  (t.map Prod.fst).Pairwise (· < ·) ∧ ∀ p ∈ t, p.2 ≠ d p.1

/-! ### What an unlisted index holds -/

/-- R305: sources 0–1023 are enabled edge sources of tenant 0 with PORT 0xFF; every other entry is zero. -/
def mainD (k : Nat) : SrcEntry := if k < 1024 then 1#64 ||| (0xFF#64 <<< 47) else 0

/-- A source at cold start: IDLE, no event; the tag's PORT copy is the entry's (R104, R305). -/
def dynD (k : Nat) : SrcDyn :=
  { st := .idle, line := false, evMode := 0, tagPort := if k < 1024 then 0xFF else 0, ev := none, rep := none,
    withdraw := none }

/-- No entry. -/
def noneD {α : Type} (_ : Nat) : Option α := none

/-- Empty list. -/
def nilD {α : Type} (_ : Nat) : List α := []

/-- Zero. -/
def zeroD {n : Nat} (_ : Nat) : BitVec n := 0

/-- Zero as a Nat. -/
def natD (_ : Nat) : Nat := 0

/-- A sampler whose input is low and has presented nothing (R70). -/
def samplerD (_ : Nat) : Sampler := { level := false, presented := false, out := none }

/-- A ring entry of zeros, in both versions. -/
def ringD (_ : Nat) : Ver RingEnt :=
  { cur := { w0 := 0, w1 := 0, w2 := 0, w3 := 0 }, x := 0, prior := { w0 := 0, w1 := 0, w2 := 0, w3 := 0 } }

/-- A multicast set entry of zeros, in both versions. -/
def mcastD (_ : Nat) : Ver McSet := { cur := { ten := 0, members := [] }, x := 0, prior := { ten := 0, members := [] } }

/-- A remote entry of zeros, in both versions. -/
def remoteD (_ : Nat) : Ver Reg64 := { cur := 0, x := 0, prior := 0 }

/-- A half that has never been enabled (Tables 6-6, 7-5 to 7-7): LN_RUNLVL 16, QUIESCED 1. -/
def halfD (_ : Nat) : Half :=
  { cons := 0, prod := 0, arm := false, nlvl := none, lastLvl := 0, runlvl := 16, resv := 0, full := false,
    faulted := false, quiesced := true, seq := 0, rsize32 := false, recSeq := 0, seqHi := 0, rgen := 0, rgenUsed := false, restarts := 0,
    scanOwed := none, quarantined := false, everEnabled := false }

/-- A group that has counted nothing (R149). -/
def grunD (_ : Nat) : GrpRun := { count := 0, soaking := false, endAt := 0, since := 0 }

/-- Table 5-3: the fused default regions; 4096 · gate + index. -/
def regionD (k : Nat) : Region :=
  if k = 0 then { lo := 0, hi := 0x1FF8#64, attr := 0x100#64 }
  else if k = 4096 then { lo := 0, hi := 0xFFFFF8#64, attr := 0x100#64 }
  else { lo := 0, hi := 0, attr := 0 }

/-- A mailbox at reset (Tables 9-2 to 9-5). -/
def mbxD (_ : Nat) : Mailbox :=
  { opcode := 0, seq := 0, argLen := 0, note := false, go := false, status := 0, rspSeq := 0, resLen := 0, done := false,
    replay := false, noteSrc := 0, noteValid := false, arg := [], res := [], held := none, cmd := none, secured := none,
    busy := .idle, journal := none, txn := none, aborted := false, session := none, handshake := false,
    sessId := 0, seqIn := 0, seqOut := 0, plain := none, slow := false }

/-- R245: every field zero at cold start, but tenant 0 holds colour 0x00. -/
def tenantD (k : Nat) : Tenant :=
  { colour := 0, coloured := k = 0, handle := 0, share := 0, ctrUser := false, selfCfg := false, isSealed := false,
    session := none, retired := false }

/-- A link that is down (R222). -/
def linkD (_ : Nat) : Link :=
  { st := .down, txSeq := 0, exp := 0, replay := [], replayQ := [], resendQ := [], due := false, proving := false, holes := [], heldF := [], bad := 0, fails := 0,
    crReq := 0, crRsp := 0, sentReq := 0, sentRsp := 0, grantReq := 0, grantRsp := 0, owedReq := 0, owedRsp := 0,
    ackSent := 0xFFF, sinceAck := 0, ackDue := false, ctl := [], resume := false, trained := false,
    mismatch := false, txReq := [], txRsp := [], rxReq := [], rxRsp := [], asmReq := [],
    asmRsp := [], fragReq := [], fragRsp := [] }

/-- A tally of zeros (R269). -/
def tallyD (_ : Nat) : Tally :=
  { accepted := 0, folded := 0, delivered := 0, notify := 0, viol := 0, wsum := 0, sat := false, carry := 0, seq := 0,
    span := 0 }

/-- A disabled ledger (R276). -/
def ledgerD (_ : Nat) : Ledger := { base := 0, code := 0, cons := 0, prod := 0, en := false, faulted := false }

/-- Table 15-2: every weight 1. -/
def weightD (_ : Nat) : Reg64 := 0x0001000100010001#64

/-- A performance counter at zero. -/
def pctrD (_ : Nat) : PCtr := { count := 0, wrap := false, tag := 0 }

/-- R297: FREE with GEN 0. -/
def tackD (_ : Nat) : Tack :=
  { st := .free, cause := 0, ten := 0, port := 0, reqid := 0, gen := 0, lease := 0, endAt := none }

/-! ### Accessors

One reading and one writing function for each table, the same shape throughout. -/

namespace State

/-- Intake, slices, delivery, and so on, replaced by a function of themselves. -/
def upIntake (s : State) (f : Intake → Intake) : State := { s with intake := f s.intake }
def upSlc (s : State) (f : Slices → Slices) : State := { s with slc := f s.slc }
def upDlv (s : State) (f : Dlv → Dlv) : State := { s with dlv := f s.dlv }
def upGates (s : State) (f : Gates → Gates) : State := { s with gates := f s.gates }
def upFw (s : State) (f : Fw → Fw) : State := { s with fw := f s.fw }
def upTwin (s : State) (f : Twin → Twin) : State := { s with twin := f s.twin }
def upRelay (s : State) (f : Relay → Relay) : State := { s with relay := f s.relay }
def upTly (s : State) (f : Tly → Tly) : State := { s with tly := f s.tly }
def upCtr (s : State) (f : Ctr → Ctr) : State := { s with ctr := f s.ctr }
def upLog (s : State) (f : Log → Log) : State := { s with log := f s.log }
def upGlb (s : State) (f : Glb → Glb) : State := { s with glb := f s.glb }
def upPwr (s : State) (f : Pwr → Pwr) : State := { s with pwr := f s.pwr }
def upMbx (s : State) (f : Tbl Mailbox → Tbl Mailbox) : State := { s with mbx := f s.mbx }
def upTenant (s : State) (f : Tbl Tenant → Tbl Tenant) : State := { s with tenant := f s.tenant }
def upLink (s : State) (f : Tbl Link → Tbl Link) : State := { s with link := f s.link }
def upTack (s : State) (f : Tbl Tack → Tbl Tack) : State := { s with tack := f s.tack }
/-- One more free value used. -/
def nextFree (s : State) : State := { s with freeCtr := s.freeCtr + 1 }

def heldL (s : State) (dip : Nat) : List Held := Tbl.get nilD s.intake.held dip
def setHeldL (s : State) (dip : Nat) (v : List Held) : State :=
  s.upIntake fun i => { i with held := Tbl.set nilD i.held dip v }
def folder (s : State) (dip : Nat) : List FoldEnt := Tbl.get nilD s.intake.folder dip
def setFolder (s : State) (dip : Nat) (v : List FoldEnt) : State :=
  s.upIntake fun i => { i with folder := Tbl.set nilD i.folder dip v }
/-- Queue 8 · origin + slice, the wired path as origin 16 (R68, R80). -/
def queue (s : State) (k : Nat) : List Msg := Tbl.get nilD s.intake.queue k
def setQueue (s : State) (k : Nat) (v : List Msg) : State :=
  s.upIntake fun i => { i with queue := Tbl.set nilD i.queue k v }
def edge (s : State) (n : Nat) : Nat := Tbl.get natD s.intake.edge n
def setEdge (s : State) (n : Nat) (v : Nat) : State := s.upIntake fun i => { i with edge := Tbl.set natD i.edge n v }
def sampler (s : State) (n : Nat) : Sampler := Tbl.get samplerD s.intake.sampler n
def setSampler (s : State) (n : Nat) (v : Sampler) : State :=
  s.upIntake fun i => { i with sampler := Tbl.set samplerD i.sampler n v }

def main (s : State) (k : Nat) : SrcEntry := Tbl.get mainD s.slc.main k
def setMain (s : State) (k : Nat) (v : SrcEntry) : State := s.upSlc fun c => { c with main := Tbl.set mainD c.main k v }
def dyn (s : State) (k : Nat) : SrcDyn := Tbl.get dynD s.slc.dyn k
def setDyn (s : State) (k : Nat) (v : SrcDyn) : State := s.upSlc fun c => { c with dyn := Tbl.set dynD c.dyn k v }
/-- Pool slot 8192 · slice + index (R81). -/
def slot (s : State) (k : Nat) : Option Slot := Tbl.get noneD s.slc.pool k
def setSlot (s : State) (k : Nat) (v : Option Slot) : State :=
  s.upSlc fun c => { c with pool := Tbl.set noneD c.pool k v }
def shadow (s : State) (k : Nat) : Option Shadow := Tbl.get noneD s.slc.shadow k
def setShadow (s : State) (k : Nat) (v : Option Shadow) : State :=
  s.upSlc fun c => { c with shadow := Tbl.set noneD c.shadow k v }
/-- The owner of a granule: tenant 0 unless TEN_GRANULE gave it away (R63). -/
def owner (s : State) (g : Nat) : BitVec 8 := Tbl.get zeroD s.slc.owner g
def setOwner (s : State) (g : Nat) (v : BitVec 8) : State :=
  s.upSlc fun c => { c with owner := Tbl.set zeroD c.owner g v }

def ringV (s : State) (r : Nat) : Ver RingEnt := Tbl.get ringD s.dlv.ring r
def setRingV (s : State) (r : Nat) (v : Ver RingEnt) : State :=
  s.upDlv fun d => { d with ring := Tbl.set ringD d.ring r v }
def mcastV (s : State) (k : Nat) : Ver McSet := Tbl.get mcastD s.dlv.mcast k
def setMcastV (s : State) (k : Nat) (v : Ver McSet) : State :=
  s.upDlv fun d => { d with mcast := Tbl.set mcastD d.mcast k v }
def remoteV (s : State) (k : Nat) : Ver Reg64 := Tbl.get remoteD s.dlv.remote k
def setRemoteV (s : State) (k : Nat) (v : Ver Reg64) : State :=
  s.upDlv fun d => { d with remote := Tbl.set remoteD d.remote k v }
def half (s : State) (r : Nat) : Half := Tbl.get halfD s.dlv.half r
def setHalf (s : State) (r : Nat) (v : Half) : State := s.upDlv fun d => { d with half := Tbl.set halfD d.half r v }
def group (s : State) (g : Nat) : Reg64 := Tbl.get zeroD s.dlv.group g
def setGroup (s : State) (g : Nat) (v : Reg64) : State := s.upDlv fun d => { d with group := Tbl.set zeroD d.group g v }
def grun (s : State) (g : Nat) : GrpRun := Tbl.get grunD s.dlv.grun g
def setGrun (s : State) (g : Nat) (v : GrpRun) : State := s.upDlv fun d => { d with grun := Tbl.set grunD d.grun g v }
def selQ (s : State) (l : Nat) : List Req := Tbl.get nilD s.dlv.sel l
def setSelQ (s : State) (l : Nat) (v : List Req) : State := s.upDlv fun d => { d with sel := Tbl.set nilD d.sel l v }
def lq (s : State) (l : Nat) : List Req := Tbl.get nilD s.dlv.lq l
def setLq (s : State) (l : Nat) (v : List Req) : State := s.upDlv fun d => { d with lq := Tbl.set nilD d.lq l v }
def paceQ (s : State) (l : Nat) : List Req := Tbl.get nilD s.dlv.pace l
def setPaceQ (s : State) (l : Nat) (v : List Req) : State := s.upDlv fun d => { d with pace := Tbl.set nilD d.pace l v }
def mc (s : State) (k : Nat) : Option McRun := Tbl.get noneD s.dlv.mc k
def setMc (s : State) (k : Nat) (v : Option McRun) : State := s.upDlv fun d => { d with mc := Tbl.set noneD d.mc k v }
def grants (s : State) (c : Nat) : List Grant := Tbl.get nilD s.dlv.grants c
def setGrants (s : State) (c : Nat) (v : List Grant) : State :=
  s.upDlv fun d => { d with grants := Tbl.set nilD d.grants c v }
def grantCount (s : State) (c : Nat) : Nat := Tbl.get natD s.dlv.count c
def setGrantCount (s : State) (c : Nat) (v : Nat) : State :=
  s.upDlv fun d => { d with count := Tbl.set natD d.count c v }
/-- The outstanding write of channel `c` under tag `t` (R29). -/
def outst (s : State) (c t : Nat) : Option Outst := Tbl.get noneD s.dlv.outst (4096 * c + t)
def setOutst (s : State) (c t : Nat) (v : Option Outst) : State :=
  s.upDlv fun d => { d with outst := Tbl.set noneD d.outst (4096 * c + t) v }
def bucket (s : State) (r : Nat) : Nat := Tbl.get natD s.dlv.bucket r
def setBucket (s : State) (r : Nat) (v : Nat) : State :=
  s.upDlv fun d => { d with bucket := Tbl.set natD d.bucket r v }
def noteQ (s : State) (c : Nat) : List Note := Tbl.get nilD s.dlv.noteQ c
def setNoteQ (s : State) (c : Nat) (v : List Note) : State :=
  s.upDlv fun d => { d with noteQ := Tbl.set nilD d.noteQ c v }
def starved (s : State) (c : Nat) : Nat := Tbl.get natD s.dlv.starved c
def setStarved (s : State) (c : Nat) (v : Nat) : State :=
  s.upDlv fun d => { d with starved := Tbl.set natD d.starved c v }

/-- A region, 4096 · gate + index. -/
def region (s : State) (k : Nat) : Region := Tbl.get regionD s.gates.region k
def setRegion (s : State) (k : Nat) (v : Region) : State :=
  s.upGates fun g => { g with region := Tbl.set regionD g.region k v }
def stagedRegion (s : State) (k : Nat) : Option Region := Tbl.get noneD s.gates.staged k
def setStagedRegion (s : State) (k : Nat) (v : Option Region) : State :=
  s.upGates fun g => { g with staged := Tbl.set noneD g.staged k v }
def violLast (s : State) (t : Nat) : BitVec 256 := Tbl.get zeroD s.gates.violLast t
def setViolLast (s : State) (t : Nat) (v : BitVec 256) : State :=
  s.upGates fun g => { g with violLast := Tbl.set zeroD g.violLast t v }

def tenantR (s : State) (t : Nat) : Tenant := Tbl.get tenantD s.tenant t
def setTenantR (s : State) (t : Nat) (v : Tenant) : State := s.upTenant fun x => Tbl.set tenantD x t v
def mailbox (s : State) (k : Nat) : Mailbox := Tbl.get mbxD s.mbx k
def setMailbox (s : State) (k : Nat) (v : Mailbox) : State := s.upMbx fun x => Tbl.set mbxD x k v
def linkAt (s : State) (k : Nat) : Link := Tbl.get linkD s.link k
def setLink (s : State) (k : Nat) (v : Link) : State := s.upLink fun x => Tbl.set linkD x k v
def tackAt (s : State) (n : Nat) : Tack := Tbl.get tackD s.tack n
def setTack (s : State) (n : Nat) (v : Tack) : State := s.upTack fun x => Tbl.set tackD x n v

def tallyAt (s : State) (t : Nat) : Tally := Tbl.get tallyD s.tly.tally t
def setTally (s : State) (t : Nat) (v : Tally) : State := s.upTly fun y => { y with tally := Tbl.set tallyD y.tally t v }
def ledgerAt (s : State) (t : Nat) : Ledger := Tbl.get ledgerD s.tly.ledger t
def setLedger (s : State) (t : Nat) (v : Ledger) : State :=
  s.upTly fun y => { y with ledger := Tbl.set ledgerD y.ledger t v }
def weight (s : State) (j : Nat) : Reg64 := Tbl.get weightD s.tly.weight j
def setWeight (s : State) (j : Nat) (v : Reg64) : State :=
  s.upTly fun y => { y with weight := Tbl.set weightD y.weight j v }
def weightNow (s : State) (j : Nat) : Reg64 := Tbl.get weightD s.tly.weightNow j

/-- A class-K counter by its register offset. -/
def cnt (s : State) (off : Nat) : Count := Tbl.get zeroD s.ctr.cnt off
def setCnt (s : State) (off : Nat) (v : Count) : State := s.upCtr fun c => { c with cnt := Tbl.set zeroD c.cnt off v }
def ctrSel (s : State) (d : Nat) : Reg64 := Tbl.get zeroD s.ctr.sel d
def setCtrSel (s : State) (d : Nat) (v : Reg64) : State := s.upCtr fun c => { c with sel := Tbl.set zeroD c.sel d v }
/-- Performance counter 8 · domain + k. -/
def pctr (s : State) (i : Nat) : PCtr := Tbl.get pctrD s.ctr.val i
def setPctr (s : State) (i : Nat) (v : PCtr) : State := s.upCtr fun c => { c with val := Tbl.set pctrD c.val i v }

def logEnt (s : State) (e : Nat) : Option LogEnt := Tbl.get noneD s.log.ents e
def setLogEnt (s : State) (e : Nat) (v : Option LogEnt) : State :=
  s.upLog fun l => { l with ents := Tbl.set noneD l.ents e v }
def lostOf (s : State) (c : Nat) : BitVec 16 := Tbl.get zeroD s.log.lost c
def setLost (s : State) (c : Nat) (v : BitVec 16) : State := s.upLog fun l => { l with lost := Tbl.set zeroD l.lost c v }
def logfail (s : State) (n : Nat) : Reg64 := Tbl.get zeroD s.log.logfail n
def setLogfail (s : State) (n : Nat) (v : Reg64) : State :=
  s.upLog fun l => { l with logfail := Tbl.set zeroD l.logfail n v }

/-- The partner's mirror state of a source (R196): 00 NONE. -/
def viewOf (s : State) (k : Nat) : BitVec 2 := Tbl.get zeroD s.twin.view k
def setView (s : State) (k : Nat) (v : BitVec 2) : State := s.upTwin fun w => { w with view := Tbl.set zeroD w.view k v }
def rdOf (s : State) (tag : Nat) : Option Rd := Tbl.get noneD s.twin.rd tag
def setRd (s : State) (tag : Nat) (v : Option Rd) : State := s.upTwin fun w => { w with rd := Tbl.set noneD w.rd tag v }
def ckpt (s : State) (t : Nat) : Option Ticket := Tbl.get noneD s.twin.ckpt t
def setCkpt (s : State) (t : Nat) (v : Option Ticket) : State :=
  s.upTwin fun w => { w with ckpt := Tbl.set noneD w.ckpt t v }

/-- The record key of a sealed tenant and the ledger keys, 256 the operator's (R254, R275). -/
def recKey (s : State) (t : Nat) : Option (BitVec 256) := Tbl.get noneD s.fw.recKey t
def setRecKey (s : State) (t : Nat) (v : Option (BitVec 256)) : State :=
  s.upFw fun f => { f with recKey := Tbl.set noneD f.recKey t v }
def ledKey (s : State) (t : Nat) : Option (BitVec 256) := Tbl.get noneD s.fw.ledKey t
def setLedKey (s : State) (t : Nat) (v : Option (BitVec 256)) : State :=
  s.upFw fun f => { f with ledKey := Tbl.set noneD f.ledKey t v }

/-- What the command drives on a port. -/
def emit (s : State) (o : Out) : State := { s with out := s.out ++ [o] }

/-- Several outputs are driven in order. -/
def emitAll (s : State) (l : List Out) : State := { s with out := s.out ++ l }

/-- The state in which a command begins: nothing driven yet, one more step counted. -/
def begin_ (s : State) : State := { s with out := [], stepNo := s.stepNo + 1 }

/-- A command's effect `f`, from the state in which it begins. After PWR_AON_DN_ACK the block does nothing (R41). -/
def run (f : State → State) (s : State) : State := if s.pwr.phase = .down then s.begin_ else f s.begin_

end State

/-- Mailbox key: MBX_STAT.ID of Table 9-4. -/
def mbxKey : Mbx → Nat
  | .ctl m => m.val
  | .ten t => 256 + t.toNat

/-- The tenant a mailbox belongs to: 0 for a control mailbox (R167). -/
def mbxTenant : Mbx → BitVec 8
  | .ctl _ => 0
  | .ten t => t

/-- Link key: Seam-T, or a Seam-R session by peer number and strap. -/
def linkKey : Seam → Nat
  | .twin => 0
  | .relay b st => 1 + 2048 * (if st then 1 else 0) + b.toNat

/-- The Seam-R session of a key. -/
def relaySeam (k : Nat) : Seam := .relay (BitVec.ofNat 11 ((k - 1) % 2048)) (decide (2048 < k))

/-! ### Counters -/

/-- Offsets of the counter pages (Table 18-7). -/
def dipPage (n : Nat) : Nat := 0x10000 + 0x1000 * n
def slcPage (n : Nat) : Nat := 0x20000 + 0x1000 * n
def dlvPage : Nat := 0x30000
def smtPage : Nat := 0x50000
def smrPage : Nat := 0x60000
def tenPage (t : Nat) : Nat := 0x100000 + 0x1000 * t

/-- A hardware increment by `k` of the class-K counter at `off`; it wraps (R84). -/
def bumpBy (off k : Nat) (s : State) : State := s.setCnt off (s.cnt off + BitVec.ofNat 48 k)

/-- A hardware increment by 1. -/
def bump (off : Nat) (s : State) : State := bumpBy off 1 s

/-- One performance counter counts `n` events: it wraps to zero, and a wrap sets WRAP and advances TAG (Table 15-7, R317). -/
def pctrAdd (n : Nat) (c : PCtr) : PCtr :=
  if c.count.toNat + n < 2 ^ 48 then { c with count := c.count + BitVec.ofNat 48 n }
  else { count := c.count + BitVec.ofNat 48 n, wrap := true, tag := c.tag + 1 }

/-- `n` events of `code` in domain `d` reach each of its counters that selects the code (R281). -/
def perfBy (d code n : Nat) (s : State) : State :=
  (List.range 8).foldl
    (fun s k => if (fld (s.ctrSel d) (8 * k) 8).toNat = code then s.setPctr (8 * d + k) (pctrAdd n (s.pctr (8 * d + k)))
      else s) s

/-- One event of `code` in domain `d`. -/
def perf (d code : Nat) (s : State) : State := perfBy d code 1 s

/-- `n` handshakes of a domain's unit, event 0x01. What counts as one is log entry 147's: a DIP's intake, a bank apply or a select, a write, a
request to the read channel, a tag or a key derivation, a register request, a flit. -/
def perfUnit (d n : Nat) (s : State) : State := perfBy d 0x01 n s

/-- Domain numbers of Table 2-8. -/
def dDip (n : Nat) : Nat := 1 + n
def dSlc (n : Nat) : Nat := 17 + n
def dDlv : Nat := 25
def dSmt : Nat := 26
def dSmr : Nat := 27
def dMgt : Nat := 28
def dCry : Nat := 29

/-- `n` record or Ticket tags, events 0x60 and 0x01 of CRY (Table 15-8). -/
def cryTags (n : Nat) (s : State) : State := perfBy dCry 0x60 n (perfUnit dCry n s)

/-- A key derivation, events 0x61 and 0x01 of CRY (Table 15-8). -/
def cryKey (s : State) : State := perf dCry 0x61 (perfUnit dCry 1 s)

end Sys2Proof.Machine
end

