-- ==== Sys2Proof/Machine/Operands.lean ====
section
/-! DEFINITION. The layouts of the spec: the fields of every entry, message, command word, record and flit, with parity and
CRC, each said once. -/

namespace Sys2Proof.Machine

/-- A register with the field at `lo` replaced. -/
def setFld {n m : Nat} (w : BitVec n) (lo : Nat) (v : BitVec m) : BitVec n :=
  (w &&& ~~~(((BitVec.allOnes m).setWidth n) <<< lo)) ||| ((v.setWidth n) <<< lo)

/-! ### Source entry (Table 4-1) -/

def srcEn (e : SrcEntry) : Bool := bitAt e 0
def srcMask (e : SrcEntry) : Bool := bitAt e 1
def srcMode (e : SrcEntry) : BitVec 2 := fld e 2 2
def srcLvl (e : SrcEntry) : BitVec 4 := fld e 4 4
def srcTen (e : SrcEntry) : BitVec 8 := fld e 8 8
def srcDestType (e : SrcEntry) : BitVec 2 := fld e 31 2
def srcDestIdx (e : SrcEntry) : BitVec 15 := fld e 16 15
def srcGroup (e : SrcEntry) : BitVec 12 := fld e 33 12
def srcFirstPol (e : SrcEntry) : Bool := bitAt e 45
def srcClaim (e : SrcEntry) : Bool := bitAt e 46
def srcPort (e : SrcEntry) : BitVec 8 := fld e 47 8

/-- The committed fields of an entry: STATE and the reserved bits read as zero (R4, R64). -/
def srcClean (e : SrcEntry) : SrcEntry := e &&& 0x007FFFFFFFFFFFFF#64

/-- An entry with MASK set to `v`. -/
def srcSetMask (e : SrcEntry) (v : Bool) : SrcEntry := setFld e 1 (b1 v)

/-- An entry with PORT set to `p`. -/
def srcSetPort (e : SrcEntry) (p : BitVec 8) : SrcEntry := setFld e 47 p

/-- STATE codes (Table 6-1). -/
def stCode : SState → BitVec 3
  | .idle => 0 | .pending => 1 | .held => 2 | .issued => 3 | .active => 4 | .activePending => 5 | .quarantined => 6

/-- An entry as software reads it, STATE in [57:55]. -/
def srcWord (e : SrcEntry) (st : SState) : Reg64 := setFld e 55 (stCode st)

/-- The pending bit: 1 in exactly PENDING, HELD, ISSUED and ACTIVE_PENDING (R104). -/
def pendBit : SState → Bool
  | .pending | .held | .issued | .activePending => true
  | .idle | .active | .quarantined => false

/-- Mirror state of a source state (R196): 00 NONE, 01 P, 10 A, 11 AP. -/
def mirrorOf : SState → BitVec 2
  | .idle | .quarantined => 0
  | .pending | .held | .issued => 1
  | .active => 2
  | .activePending => 3

/-! ### Banks (R79) -/

/-- The bank of a source: s[7:0] XOR s[15:8] XOR (s[17:16] × 0x40). -/
def bankOf (s : BitVec 18) : BitVec 8 := fld s 0 8 ^^^ fld s 8 8 ^^^ ((fld s 16 2).setWidth 8 * 0x40#8)

/-- The slice that owns a source. -/
def sliceOf (s : BitVec 18) : Nat := (fld (bankOf s) 5 3).toNat

/-- The index of a source within its bank. -/
def bankIdx (s : BitVec 18) : Nat := (fld s 8 10).toNat

/-! ### Ring entry (Table 7-1) -/

def ringEn (r : RingEnt) : Bool := bitAt r.w0 0
def ringDataLvl (r : RingEnt) : Bool := bitAt r.w0 1
def ringSize (r : RingEnt) : BitVec 4 := fld r.w0 2 4
def ringTen (r : RingEnt) : BitVec 8 := fld r.w0 6 8
def ringBand (r : RingEnt) : BitVec 2 := fld r.w0 14 2
def ringGuar (r : RingEnt) : BitVec 16 := fld r.w0 16 16
def ringNdata (r : RingEnt) : DW := fld r.w0 32 32
def ringBaseA (r : RingEnt) : BitVec 52 := fld r.w1 12 52
def ringBaseB (r : RingEnt) : BitVec 52 := fld r.w2 12 52
def ringNaddr (r : RingEnt) : BitVec 64 := r.w3 &&& ~~~3#64

/-- Records of a half: 2^(SIZE + 6) (Table 7-1). -/
def ringRecs (r : RingEnt) : Nat := 2 ^ ((ringSize r).toNat + 6)

/-- Base of this block's half (R16): A half on the A block, B half on the B block. -/
def ringBase (strapB : Bool) (r : RingEnt) : BitVec 64 :=
  (if strapB then ringBaseB r else ringBaseA r) ++ 0#12

/-- Reserved bits of a ring entry read as zero. -/
def ringClean (r : RingEnt) : RingEnt :=
  { w0 := r.w0, w1 := r.w1 &&& ~~~0xFFF#64, w2 := r.w2 &&& ~~~0xFFF#64, w3 := r.w3 &&& ~~~3#64 }

/-- A ring entry of zeros. -/
def ringZero : RingEnt := { w0 := 0, w1 := 0, w2 := 0, w3 := 0 }

/-! ### Region (Table 5-1) -/

def regStart (r : Region) : Nat := (r.lo &&& ~~~7#64).toNat
def regEnd (r : Region) : Nat := (r.hi &&& ~~~7#64).toNat + 7
def regColour (r : Region) : BitVec 8 := fld r.attr 0 8
def regValid (r : Region) : Bool := bitAt r.attr 8
def regOrd (r : Region) : Bool := bitAt r.attr 9
def regNs (r : Region) : Bool := bitAt r.attr 10
def regAlloc (r : Region) : BitVec 2 := if fld r.attr 11 2 = 3 then 0 else fld r.attr 11 2
def regTen (r : Region) : BitVec 8 := fld r.attr 13 8

/-- Bits [2:0] of START and END and the reserved bits of ATTR read as zero (R85). -/
def regClean (r : Region) : Region :=
  { lo := r.lo &&& ~~~7#64, hi := r.hi &&& ~~~7#64, attr := r.attr &&& 0x1FFFFF#64 }

/-- A region of zeros. -/
def regZero : Region := { lo := 0, hi := 0, attr := 0 }

/-- Entries in each gate's table (Table 5-2). -/
def gateSize : Nat → Nat
  | 0 => 2048 | 1 => 512 | 2 => 4096 | _ => 0

/-! ### Group (Table 8-1) and remote entry (Table 13-1) -/

def grpEn (g : Nat) (w : Reg64) : Bool := decide (g ≠ 0) && bitAt w 0
def grpBurst (w : Reg64) : Nat := if fld w 8 8 = 0 then 1 else (fld w 8 8).toNat
def grpTen (w : Reg64) : BitVec 8 := fld w 16 8
def grpSoak (w : Reg64) : BitVec 24 := fld w 24 24
def grpClean (w : Reg64) : Reg64 := w &&& 0x0000FFFFFFFFFF01#64

def remBlk (w : Reg64) : BitVec 11 := fld w 0 11
def remRing (w : Reg64) : BitVec 15 := fld w 12 15
def remTen (w : Reg64) : BitVec 8 := fld w 32 8
def remEn (w : Reg64) : Bool := bitAt w 40
def remClean (w : Reg64) : Reg64 := w &&& 0x000001FF07FFF7FF#64

/-! ### DIP message (Table 2-3) -/

/-- Message m of a handshake: DIPn_D[128m+127:128m]. -/
def dipMsg (d : BitVec 512) (m : Nat) : BitVec 128 := fld d (128 * m) 128

def dmOffset (m : BitVec 128) : BitVec 24 := fld m 0 24
def dmBe (m : BitVec 128) : BitVec 4 := fld m 24 4
def dmData (m : BitVec 128) : DW := fld m 32 32
def dmCookie (m : BitVec 128) : BitVec 28 := fld m 32 28
def dmKind (m : BitVec 128) : BitVec 4 := fld m 60 4
def dmReqid (m : BitVec 128) : BitVec 16 := fld m 64 16
def dmPort (m : BitVec 128) : BitVec 8 := fld m 80 8
def dmColour (m : BitVec 128) : BitVec 8 := fld m 88 8
def dmRelayed (m : BitVec 128) : Bool := bitAt m 96
def dmSrcBlock (m : BitVec 128) : BitVec 11 := fld m 97 11

/-- The in-band parity byte of R21: bit k covers [16k+15:16k] for k = 0 to 6, bit 7 covers [119:112]. -/
def inbandParity (m : BitVec 128) : BitVec 8 :=
  (List.range 8).foldl
    (fun acc k => acc ||| (((b1 (if k < 7 then evenParity (fld m (16 * k) 16) else evenParity (fld m 112 8))).setWidth 8) <<< k)) 0

/-- Whether a 128-bit word's in-band parity holds (R21, R27). -/
def inbandOk (m : BitVec 128) : Bool := fld m 120 8 = inbandParity m

/-- A word with its in-band parity filled in. -/
def withInband (m : BitVec 128) : BitVec 128 := setFld m 120 (inbandParity m)

/-- Parity over 16-bit groups: bit k covers [16k+15:16k] (R20). -/
def groupParity {n : Nat} (w : BitVec n) (groups : Nat) : BitVec groups :=
  (List.range groups).foldl
    (fun acc k => acc ||| (((b1 (evenParity (fld w (16 * k) 16))).setWidth groups) <<< k)) 0

/-! ### Register target port (Table 2-7) -/

/-- The request that RTP_Q and RTP_QP spell; 16-bit groups carry the parity (Table 2-2a). -/
def rtpOfQ (q : BitVec 128) (qp : BitVec 8) : RtpReq :=
  { offset := fld q 0 26, write := bitAt q 26, size8 := bitAt q 27, data := fld q 32 64,
    rq := { reqid := fld q 96 16, port := fld q 112 8, colour := fld q 120 8, parityOk := decide (groupParity q 8 = qp) } }

/-- The request of an access of part `a` of the 8-byte register at `off`. -/
def rtpAt (off : Nat) (write : Bool) (a : Acc) (data : BitVec 64) (rq : Rq) : RtpReq :=
  match a with
  | .w8 => { offset := BitVec.ofNat 26 off, write, size8 := true, data, rq }
  | .lo => { offset := BitVec.ofNat 26 off, write, size8 := false, data, rq }
  | .hi => { offset := BitVec.ofNat 26 (off + 4), write, size8 := false, data, rq }

/-- STATUS of a response (Table 2-7). -/
def rtpStatusCode : RtpStatus → BitVec 2
  | .ok => 0 | .fault => 1 | .parity => 2

/-- RTP_RP: 16-bit groups, and bit 3 covers [65:48] (Table 2-2a). -/
def rtpParity (r : BitVec 66) : BitVec 4 := b1 (evenParity (fld r 48 18)) ++ groupParity (fld r 0 48) 3

/-- The response RTP_R, RDATA in [63:0] and STATUS in [65:64], with its parity (Table 2-7). -/
def rtpOut (data : Reg64) (st : RtpStatus) : Out :=
  .rtp (rtpStatusCode st ++ data) (rtpParity (rtpStatusCode st ++ data))

/-! ### Read channel (R31) -/

/-- The request word RCH_C. -/
def readCmd (addr : BitVec 64) (cas : Bool) (tag : BitVec 8) (compare swap : BitVec 64) : BitVec 256 :=
  setFld (setFld (setFld (setFld (addr.setWidth 256) 64 (0#1 ++ b1 cas)) 66 tag) 128 compare) 192 swap

/-- A read-channel request with its parity. -/
def readOut (addr : BitVec 64) (cas : Bool) (tag : BitVec 8) (compare swap : BitVec 64) : Out :=
  .read (readCmd addr cas tag compare swap) (groupParity (readCmd addr cas tag compare swap) 16)

/-! ### Write command (Table 2-4) and completion (R29) -/

/-- A write with its data parity (Table 2-2a). -/
def writeOut (ch : Nat) (cmd : BitVec 128) (data : BitVec 512) : Out := .write ch cmd data (groupParity data 32)

/-- The command word WCHn_C. -/
def writeCmd (addr : BitVec 64) (len : Nat) (cls : BitVec 3) (ord ns : Bool) (alloc : BitVec 2) (colour : BitVec 8)
    (tag : BitVec 12) : BitVec 128 :=
  withInband
    (setFld (setFld (setFld (setFld (setFld (setFld (setFld (addr.setWidth 128) 64 (BitVec.ofNat 6 (len - 1))) 72 cls) 75 (b1 ord))
      76 (b1 ns)) 77 alloc) 79 colour) 87 tag)

/-- Fields of a completion word. -/
def cplTag (c : BitVec 16) : BitVec 12 := fld c 0 12
def cplStatus (c : BitVec 16) : BitVec 3 := fld c 12 3
def cplParityOk (c : BitVec 16) : Bool := decide (b1 (evenParity (fld c 0 15)) = fld c 15 1)

/-- A 512-bit data bus from DWs, the rest zero. -/
def dataOf (l : List DW) : BitVec 512 := BitVec.ofNat 512 (natOfDws l)

/-! ### Records (Tables 7-3a and 7-4) -/

/-- DW0 of a record. -/
def recDw0 (src : BitVec 18) (lvl : BitVec 4) (ten : BitVec 8) (mcast phase : Bool) : DW :=
  at32 src 0 ||| at32 lvl 18 ||| at32 ten 22 ||| at32 (b1 mcast) 30 ||| at32 (b1 phase) 31

/-- DW1 of a record. -/
def recDw1 (cookie : BitVec 28) (kind : BitVec 4) : DW := at32 cookie 0 ||| at32 kind 28

/-- DW2 of a record. -/
def recDw2 (folds : BitVec 24) (dup remote lost twin : Bool) : DW :=
  at32 folds 0 ||| at32 (b1 dup) 24 ||| at32 (b1 remote) 25 ||| at32 (b1 lost) 26 ||| at32 (b1 twin) 27

/-- PHASE of the record at producer index p of a half of `size` records: 1 on even laps (R127). -/
def phaseOf (p size : Nat) : Bool := p / size % 2 = 0

/-! ### CRC (R214, R226) -/

/-- One bit step of the reflected CRC-32 with polynomial 0x04C1_1DB7. -/
def crc32Bit (c : DW) : DW := if bitAt c 0 then (c >>> 1) ^^^ 0xEDB88320#32 else c >>> 1

/-- One byte step. -/
def crc32Byte (c : DW) (b : Byte) : DW :=
  crc32Bit (crc32Bit (crc32Bit (crc32Bit (crc32Bit (crc32Bit (crc32Bit (crc32Bit (c ^^^ b.setWidth 32))))))))

/-- CRC-32 of IEEE 802.3 (R214). -/
def crc32 (l : List Byte) : DW := (l.foldl crc32Byte 0xFFFFFFFF#32) ^^^ 0xFFFFFFFF#32

/-- One bit of the CRC-8 with polynomial 0x07, most significant bit first. -/
def crc8Bit (c : Byte) : Byte := if bitAt c 7 then (c <<< 1) ^^^ 0x07#8 else c <<< 1

/-- One byte of the CRC-8. -/
def crc8Byte (c b : Byte) : Byte :=
  crc8Bit (crc8Bit (crc8Bit (crc8Bit (crc8Bit (crc8Bit (crc8Bit (crc8Bit (c ^^^ b))))))))

/-- LCHK of a lane word: CRC-8 over bits [271:16] and [7:0], taken as bytes, lowest bits first (log entry 12). -/
def laneCheck (w : BitVec 272) : Byte := ((bytesOf (fld w 16 256) 32) ++ [fld w 0 8]).foldl crc8Byte 0

/-! ### Flits (Tables 12-1 and 12-4) -/

def flType (f : BitVec 1024) : BitVec 2 := fld f 0 2
def flRsp (f : BitVec 1024) : Bool := bitAt f 2
def flAckV (f : BitVec 1024) : Bool := bitAt f 3
def flAck (f : BitVec 1024) : BitVec 12 := fld f 4 12
def flCrReq (f : BitVec 1024) : BitVec 8 := fld f 16 8
def flCrRsp (f : BitVec 1024) : BitVec 8 := fld f 24 8
def flPayload (f : BitVec 1024) : BitVec 960 := fld f 32 960
def flCrc (f : BitVec 1024) : DW := fld f 992 32

/-- The CRC of bytes 0–123 behind the 2-byte value that stands before them (R214). -/
def flitCrc (seq : BitVec 16) (body : BitVec 992) : DW := crc32 (bytesOf seq 2 ++ bytesOf body 124)

/-- Whether a flit's CRC matches the 2-byte value `seq`. -/
def flitMatches (f : BitVec 1024) (seq : BitVec 16) : Bool := decide (flCrc f = flitCrc seq (fld f 0 992))

/-- The value for an unsequenced flit. -/
def unseqPre : BitVec 16 := 0xF000#16

/-- The value for a sequenced flit. -/
def seqPre (n : BitVec 12) : BitVec 16 := n.setWidth 16

/-- A header (Table 12-1). -/
def flitHeader (typ : BitVec 2) (rsp ackV : Bool) (ack : BitVec 12) (cr cs : BitVec 8) : DW :=
  at32 typ 0 ||| at32 (b1 rsp) 2 ||| at32 (b1 ackV) 3 ||| at32 ack 4 ||| at32 cr 16 ||| at32 cs 24

/-- A flit of header and payload with its CRC behind `seq`. -/
def mkFlit (hdr : DW) (payload : BitVec 960) (seq : BitVec 16) : BitVec 1024 :=
  flitCrc seq (payload ++ hdr) ++ (payload ++ hdr)

/-- A payload from DWs. -/
def payloadOf (l : List DW) : BitVec 960 := BitVec.ofNat 960 (natOfDws l)

end Sys2Proof.Machine
end

