-- ==== Sys2Proof/Machine/Aes.lean ====
section
/-! DEFINITION. The AES-256-GCM tag of NIST SP 800-38D over additional data alone, which R255 and R274 name. -/

namespace Sys2Proof.Machine

/-! ### AES-256 (FIPS 197) -/

/-- Multiplication by x in GF(2^8) with polynomial 0x11B. -/
def gfX (a : Byte) : Byte := if bitAt a 7 then (a <<< 1) ^^^ 0x1B#8 else a <<< 1

/-- Product in GF(2^8), over `n` bits of `b` from bit 0 up. -/
def gfMulN : Nat → Byte → Byte → Byte
  | 0, _, _ => 0
  | n + 1, a, b => (if bitAt b 0 then a else 0) ^^^ gfMulN n (gfX a) (b >>> 1)

/-- Product in GF(2^8). -/
def gfMul (a b : Byte) : Byte := gfMulN 8 a b

/-- a^254 by square and multiply, the inverse, and 0 for 0. -/
def gfInv (a : Byte) : Byte :=
  let a2 := gfMul a a
  let a4 := gfMul a2 a2
  let a8 := gfMul a4 a4
  let a16 := gfMul a8 a8
  let a32 := gfMul a16 a16
  let a64 := gfMul a32 a32
  let a128 := gfMul a64 a64
  gfMul a128 (gfMul a64 (gfMul a32 (gfMul a16 (gfMul a8 (gfMul a4 a2)))))

/-- SubBytes of one byte. -/
def aesSub (a : Byte) : Byte :=
  let i := gfInv a
  i ^^^ i.rotateLeft 1 ^^^ i.rotateLeft 2 ^^^ i.rotateLeft 3 ^^^ i.rotateLeft 4 ^^^ 0x63#8

/-- XOR of two byte strings. -/
def xorBytes (a b : List Byte) : List Byte := List.zipWith (· ^^^ ·) a b

/-- Key words, newest first: grows the schedule by `n` words from word number `i`. -/
def aesGrow : Nat → Nat → Byte → List (List Byte) → List (List Byte)
  | 0, _, _, w => w
  | n + 1, i, rc, w =>
    let t := w.getD 0 []
    let u :=
      if i % 8 = 0 then xorBytes ((t.drop 1 ++ t.take 1).map aesSub) [rc, 0, 0, 0]
      else if i % 8 = 4 then t.map aesSub
      else t
    aesGrow n (i + 1) (if i % 8 = 0 then gfX rc else rc) (xorBytes (w.getD 7 []) u :: w)

/-- The fifteen round keys of a 32-byte key, 16 bytes each. -/
def aesKeys (key : List Byte) : List (List Byte) :=
  let w := (aesGrow 52 8 1 (pieces 4 8 key).reverse).reverse
  pieces 16 15 w.flatten

/-- ShiftRows on a state of 16 bytes, column by column. -/
def aesShift (s : List Byte) : List Byte :=
  [0, 5, 10, 15, 4, 9, 14, 3, 8, 13, 2, 7, 12, 1, 6, 11].map fun i => s.getD i 0

/-- MixColumns of one column. -/
def aesMixCol (c : List Byte) : List Byte :=
  let a := c.getD 0 0
  let b := c.getD 1 0
  let d := c.getD 2 0
  let e := c.getD 3 0
  [gfX a ^^^ gfX b ^^^ b ^^^ d ^^^ e, a ^^^ gfX b ^^^ gfX d ^^^ d ^^^ e, a ^^^ b ^^^ gfX d ^^^ gfX e ^^^ e,
   gfX a ^^^ a ^^^ b ^^^ d ^^^ gfX e]

/-- One inner round. -/
def aesRound (s k : List Byte) : List Byte :=
  xorBytes ((pieces 4 4 (aesShift (s.map aesSub))).flatMap aesMixCol) k

/-- AES-256 of one block. -/
def aesBlock (key block : List Byte) : List Byte :=
  let ks := aesKeys key
  let s := (ks.drop 1 |>.take 13).foldl aesRound (xorBytes block (ks.getD 0 []))
  xorBytes (aesShift (s.map aesSub)) (ks.getD 14 [])

/-! ### GHASH (SP 800-38D) -/

/-- A block as a 128-bit word, its first bit most significant. -/
def ghWord (l : List Byte) : BitVec 128 := l.foldl (fun w b => (w <<< 8) ||| b.setWidth 128) 0

/-- The product of SP 800-38D, over `n` bits of `x` from the most significant down. -/
def ghMulN : Nat → BitVec 128 → BitVec 128 → BitVec 128 → BitVec 128
  | 0, _, _, z => z
  | n + 1, x, v, z =>
    ghMulN n (x <<< 1) (if bitAt v 0 then (v >>> 1) ^^^ (0xE1#128 <<< 120) else v >>> 1) (if bitAt x 127 then z ^^^ v else z)

/-- GHASH under hash key `h` of blocks. -/
def ghash (h : BitVec 128) (l : List (BitVec 128)) : BitVec 128 := l.foldl (fun y x => ghMulN 128 (y ^^^ x) h 0) 0

/-- Additional data as blocks, the last filled with zeros. -/
def ghBlocks (aad : List Byte) : List (BitVec 128) :=
  let n := (aad.length + 15) / 16
  (pieces 16 n (aad ++ List.replicate (16 * n - aad.length) 0#8)).map ghWord

/-- The AES-256-GCM tag for an empty plaintext, additional data `aad` and a 12-byte IV. -/
def gmac (key iv aad : List Byte) : List Byte :=
  let h := ghWord (aesBlock key (List.replicate 16 0#8))
  let len := BitVec.ofNat 128 (8 * aad.length) <<< 64
  let y := ghash h (ghBlocks aad ++ [len])
  let e := ghWord (aesBlock key (iv ++ [0#8, 0, 0, 1]))
  (bytesOf (y ^^^ e) 16).reverse

/-- The first 8 bytes of the tag, as two DWs, tag byte 0 in byte 0 of the first (R255, R274). -/
def gmac64 (key : BitVec 256) (iv aad : List Byte) : BitVec 64 :=
  BitVec.ofNat 64 (natOfBytes ((gmac (bytesOf key 32) iv aad).take 8))

end Sys2Proof.Machine
end

