-- ==== Sys2Proof/Config.lean ====
section
/-! DEFINITION. Config: the values that the spec leaves open. Each is a constant without a body, so no proof can see its
value; each is applied to a plain counter of State or to the operands it depends on. -/

namespace Sys2Proof.Config

/-- A completion tag of a write channel: R27 asks only that it be unique among the channel's outstanding writes. The
step tries this value first and moves up to the next free one (log entry 5). -/
opaque tag : Nat → BitVec 12

/-- A tag of a read-channel request (R31), used in the same way (log entry 5). -/
opaque readTag : Nat → BitVec 8

/-- The pool slot, within its slice, that an apply of a source takes: R81 says only 'a free slot'. It is applied to the step and the
source; where it is not free, the lowest free slot is taken (log entry 6). -/
opaque slot : Nat → Nat → BitVec 13

/-- The export master secret of an SPDM session: R254 takes it from the SPDM 1.2 key schedule, whose inputs the spec does
not give (log entry 9). -/
opaque exportSecret : Nat → BitVec 384

/-- DW k of an SPDM response whose content the SPDM specification, not this spec, gives (R258, log entry 9). -/
opaque spdmDw : Nat → Nat → DW

/-- Number of bytes of such a response (R258: 0 to 768). -/
opaque spdmLen : Nat → BitVec 10

/-- The certificates of slot 0 above the device's: 0 the root, 1 the intermediate (R259, log entry 9). -/
opaque certificate : Nat → List Byte

/-- The device certificate, by the identity key that it binds and the serial number that it names (R259, log entry 9). -/
opaque deviceCert : List Byte → List Byte → List Byte

/-- The block's public P-384 identity key (R259, log entry 9). -/
opaque identityKey : List Byte

/-- The block's serial number (R259, log entry 9). -/
opaque serial : List Byte

/-- The digest of the ROM, with which the measurement chain begins (R260); the spec gives no value (log entry 9). -/
opaque romDigest : BitVec 384

/-- The digest of one 64-entry range of one table (R207): the spec does not lay out the bytes it covers (log entry 11). -/
opaque rangeDigest : Nat → BitVec 384

end Sys2Proof.Config
end

