-- ==== Sys2Proof/Machine/Flags.lean ====
section
/-! DEFINITION. What a write of a register does to its fields by their access codes and Concurrent classes (Tables 0-4 and 0-5,
R314, R316–R318), and the flags that carry a tag. -/

namespace Sys2Proof.Machine

/-- The bits of an 8-byte register that an access reaches (R314). -/
def accMask : Acc → Reg64
  | .w8 => BitVec.allOnes 64
  | .lo => 0xFFFFFFFF#64
  | .hi => 0xFFFFFFFF00000000#64

/-- The written data in the register's bit places; a 4-byte write uses the low 32 bits of its data (Table 2-7). -/
def accData (a : Acc) (data : Reg64) : Reg64 :=
  match a with
  | .w8 => data
  | .lo => data &&& 0xFFFFFFFF#64
  | .hi => data <<< 32

/-- The register after an RW write of the bits `a` reaches. -/
def accMerge (a : Acc) (old data : Reg64) : Reg64 := (old &&& ~~~accMask a) ||| accData a data

/-- Whether the write reaches bit `i` with a 1: a W1S bit or an RWT flag acts only then (R5). -/
def accOne (a : Acc) (data : Reg64) (i : Nat) : Bool := bitAt (accData a data) i

/-- A class-S flag with its tag. -/
structure Flag where
  set : Bool
  tag : BitVec 4
deriving DecidableEq, Repr

/-- A hardware set: the flag is 1 and the tag advances, also when the flag was 1 already (R317). -/
def Flag.hwSet (f : Flag) : Flag := { set := true, tag := f.tag + 1 }

/-- A write-clear: it clears the flag exactly when a 1 is written to it with the tag in force, and never changes the tag
(R317). -/
def Flag.swClear (f : Flag) (one : Bool) (tag : BitVec 4) : Flag :=
  if one && decide (tag = f.tag) then { f with set := false } else f

/-- GLB_TIME_STAT.STALL (Table 8-4). -/
def stallFlag (s : State) : Flag := { set := s.glb.stall, tag := s.glb.stallTag }
def setStallFlag (s : State) (f : Flag) : State := s.upGlb fun g => { g with stall := f.set, stallTag := f.tag }

/-- DLV_PACE_STAT.SHORT (Table 8-6). -/
def shortFlag (s : State) : Flag := { set := s.dlv.short, tag := s.dlv.shortTag }
def setShortFlag (s : State) (f : Flag) : State := s.upDlv fun d => { d with short := f.set, shortTag := f.tag }

/-- GLB_TWIN.TAKEOVER (Table 11-2). -/
def takeoverFlag (s : State) : Flag := { set := s.twin.takeover, tag := s.twin.tag }
def setTakeoverFlag (s : State) (f : Flag) : State := s.upTwin fun w => { w with takeover := f.set, tag := f.tag }

/-- CTR_VALk.WRAP (Table 15-7). -/
def wrapFlag (s : State) (i : Nat) : Flag := { set := (s.pctr i).wrap, tag := (s.pctr i).tag }
def setWrapFlag (s : State) (i : Nat) (f : Flag) : State :=
  s.setPctr i { s.pctr i with wrap := f.set, tag := f.tag }

end Sys2Proof.Machine
end

