-- ==== Sys2Proof/Machine/LogOps.lean ====
section
/-! DEFINITION. The Mending Log's entries, merging, copies and LOST counters (file 16), and the violation report (file 05).
What escalates is in Errors.lean. -/

namespace Sys2Proof.Machine

/-- Codes of Table 16-2. -/
def kindCode : ErrKind → Byte
  | .violation => 0x01 | .sramCe => 0x02 | .timeStall => 0x03 | .guarShort => 0x04 | .mbxSlow => 0x05
  | .twinTakeover => 0x06 | .seamRetrain => 0x07 | .seamDown => 0x08 | .seamRinse => 0x09 | .seamLaneDrop => 0x0A
  | .seamLaneAdd => 0x0B | .seamMismatch => 0x0C | .bundleResend => 0x0D | .relayReject => 0x0E
  | .relayPathFail => 0x0F | .relayDiscard => 0x10 | .coreDfault => 0x11 | .coreLockstep => 0x12 | .coreWdog => 0x13
  | .srcUe => 0x20 | .ringUe => 0x21 | .writeErr => 0x22 | .regionUe => 0x23 | .slotUe => 0x24 | .entryUe => 0x25
  | .keyUe => 0x26 | .tallyUe => 0x27 | .journalUe => 0x28 | .zeroFail => 0x29 | .portParity => 0x30 | .queueUe => 0x31
  | .fwHalt => 0x32 | .pwrTimeout => 0x33 | .controlUe => 0x40
  | .logUe => 0x00

/-- Classes of Table 16-3: 00 CE, 01 UC-U, 10 UC-B, 11 FATAL. -/
def clsCE : BitVec 2 := 0
def clsUCU : BitVec 2 := 1
def clsUCB : BitVec 2 := 2
def clsFatal : BitVec 2 := 3

/-- Class of each kind (Table 16-2). -/
def kindClass : ErrKind → BitVec 2
  | .violation | .sramCe | .timeStall | .guarShort | .mbxSlow | .twinTakeover | .seamRetrain | .seamDown | .seamRinse
  | .seamLaneDrop | .seamLaneAdd | .seamMismatch | .bundleResend | .relayReject | .relayPathFail | .relayDiscard
  | .coreDfault | .coreLockstep | .coreWdog => clsCE
  | .srcUe | .ringUe | .writeErr | .regionUe | .slotUe | .entryUe | .keyUe | .tallyUe | .journalUe | .zeroFail => clsUCU
  | .portParity | .queueUe | .fwHalt | .pwrTimeout => clsUCB
  | .controlUe => clsFatal
  | .logUe => clsUCU

/-! ### Units (Table 16-1) -/

def uBlock : ErrUnit := { typ := 0x0, val := 0 }
def uSrc (s : BitVec 18) : ErrUnit := { typ := 0x1, val := s.setWidth 28 }
def uRing (r : BitVec 15) : ErrUnit := { typ := 0x2, val := r.setWidth 28 }
def uRegion (k : Nat) : ErrUnit := { typ := 0x3, val := BitVec.ofNat 28 (8192 * (k / 4096) + k % 4096) }
def uKey (t : BitVec 8) : ErrUnit := { typ := 0x6, val := t.setWidth 28 }
def uGateTenant (gate : BitVec 2) (t : BitVec 8) : ErrUnit := { typ := 0x7, val := (gate ++ t).setWidth 28 }
def uLedger (t : BitVec 8) : ErrUnit := { typ := 0x9, val := t.setWidth 28 }
def uErrRing : ErrUnit := { typ := 0x9, val := 0x100 }
def uPort (p : Nat) : ErrUnit := { typ := 0xA, val := BitVec.ofNat 28 p }
def uLink (relay strap : Bool) (blk : BitVec 11) : ErrUnit :=
  { typ := 0xB, val := ((b1 relay) ++ (b1 strap) ++ blk).setWidth 28 }
def uMbx (m : Mbx) : ErrUnit := { typ := 0xC, val := BitVec.ofNat 28 (mbxKey m) }
def uCore : ErrUnit := { typ := 0xD, val := 0 }
def uPacer : ErrUnit := { typ := 0xE, val := 0 }
def uDomain (d : Nat) : ErrUnit := { typ := 0xF, val := BitVec.ofNat 28 d }

/-- An error as it is detected. -/
structure ErrIn where
  kind : Byte
  cls : BitVec 2
  unit : ErrUnit
  detail : BitVec 256
  escalated : Bool
deriving DecidableEq, Repr

/-- An error of a kind of Table 16-2. -/
def mkErr (k : ErrKind) (u : ErrUnit) (detail : BitVec 256) : ErrIn :=
  { kind := kindCode k, cls := kindClass k, unit := u, detail, escalated := false }

/-- The error ring is enabled (Table 16-5: base 0 disables). -/
def errRingOn (s : State) : Bool := decide (s.log.base ≠ 0)

/-- Entries of the error ring: 2^(SIZE + 4). -/
def errRingRecs (s : State) : Nat := 2 ^ (s.log.size.toNat + 4)

/-- The error ring has no room (Table 16-6). -/
def errRingFull (s : State) : Bool :=
  errRingOn s && decide (errRingRecs s ≤ (s.log.prod - s.log.cons).toNat)

/-- LSEQ `a` was given before `b`; the count wraps (Table 16-3). -/
def lseqBefore (a b : BitVec 32) : Bool := decide (0 < (b - a).toNat) && decide ((b - a).toNat < 2 ^ 31)

/-- LSEQ of entry `e`. -/
def lseqOf (s : State) (e : Nat) : BitVec 32 :=
  match s.logEnt e with
  | some x => x.lseq
  | none => 0

/-- A copy of entry `e` joins those that wait, in LSEQ order (R290). -/
def joinCopy (s : State) (e no : Nat) : List CopyItem → List CopyItem
  | .entry f m :: r => if lseqBefore (lseqOf s e) (lseqOf s f) then .entry e no :: .entry f m :: r else .entry f m :: joinCopy s e no r
  | c :: r => c :: joinCopy s e no r
  | [] => [.entry e no]

/-- Asks for a copy of entry `e` (R285, R286); while the ring is disabled nothing is queued. -/
def askCopy (e : Nat) (s : State) : State :=
  match s.logEnt e with
  | none => s
  | some x =>
    let s1 := s.setLogEnt e (some { x with copyNo := s.log.copyCtr + 1, copyOk := false })
    s1.upLog fun l =>
      { l with copyCtr := l.copyCtr + 1, copyQ := if errRingOn s then joinCopy s e (s.log.copyCtr + 1) l.copyQ else l.copyQ }

/-- The entry that an error of `cls` and `u` merges into: unacknowledged, of that class and unit (R285). -/
def findOpen (s : State) (cls : BitVec 2) (u : ErrUnit) : Option Nat :=
  (List.range 63).find? fun e =>
    match s.logEnt e with
    | some x => x.cls = cls && x.unit = u && !x.acked && x.form = 0
    | none => false

/-- The lowest-numbered free entry among 0–62 (R285). -/
def freeEntry (s : State) : Option Nat := (List.range 63).find? fun e => (s.logEnt e).isNone

/-- Some unacknowledged UC-B entry exists (R285). -/
def ucbOpenEntry (s : State) : Bool :=
  (List.range 63).any fun e =>
    match s.logEnt e with
    | some x => x.cls = clsUCB && !x.acked
    | none => false

/-- An entry holding error `x`, created now (Table 16-3). -/
def entryOf (s : State) (x : ErrIn) : LogEnt :=
  { kind := x.kind, cls := x.cls, multi := false, escalated := x.escalated, unit := x.unit, acked := false, count := 1,
    lseq := s.log.lseq, first := s.glb.now, last := s.glb.now, detail := x.detail, form := 0, copyNo := 0, copyOk := false }

/-- Places a new entry; LSEQ counts it (Table 16-3, DW3). -/
def putEntry (e : Nat) (x : LogEnt) (s : State) : State :=
  (s.setLogEnt e (some x)).upLog fun l => { l with lseq := l.lseq + 1 }

/-- Some LOST counter is nonzero (R287). -/
def anyLost (s : State) : Bool := decide (s.lostOf 0 ≠ 0) || decide (s.lostOf 1 ≠ 0) || decide (s.lostOf 2 ≠ 0)

/-- The highest class counted (R287). -/
def lostClass (s : State) : BitVec 2 :=
  if s.lostOf 2 ≠ 0 then clsUCB else if s.lostOf 1 ≠ 0 then clsUCU else clsCE

/-- R287: with an entry free and a LOST counter nonzero, a LOST_SUMMARY entry takes the lowest free entry, is copied, and the
counters clear. With the error ring disabled it is freed at once, as R286 frees an acknowledged entry. -/
def summarise (s : State) : State :=
  if anyLost s then
    match freeEntry s with
    | none => s
    | some e =>
      let x : LogEnt :=
        { kind := 0, cls := lostClass s, multi := false, escalated := false, unit := uBlock, acked := false, count := 0,
          lseq := s.log.lseq, first := s.glb.now, last := s.glb.now,
          detail := ((s.lostOf 2).setWidth 256 <<< 64) ||| ((s.lostOf 1).setWidth 256 <<< 32) ||| (s.lostOf 0).setWidth 256,
          form := 0xF, copyNo := 0, copyOk := false }
      let s1 := (((putEntry e x s).setLost 0 0).setLost 1 0).setLost 2 0
      if errRingOn s then askCopy e s1 else s1.setLogEnt e none
  else s

/-- A LOST counter holds at 0xFFFF (R287); ERR_STAT.LOST counts every error neither entered nor copied (Table 16-6). -/
def countLost (cls : BitVec 2) (s : State) : State :=
  (s.setLost cls.toNat (holdInc (s.lostOf cls.toNat) 1)).upLog fun l => { l with lostTotal := l.lostTotal + 1 }

/-- A bypass entry (R291): ENTRY 0, COUNT 1, no merging; one that the ring cannot take is counted in LOST. -/
def bypassWrite (x : ErrIn) (s : State) : State :=
  if errRingOn s && !s.log.faulted && decide ((s.log.prod - s.log.cons).toNat + s.log.copyQ.length < errRingRecs s) then
    s.upLog fun l => { l with copyQ := l.copyQ ++ [.bypass (entryOf s x)], lseq := l.lseq + 1 }
  else s.upLog fun l => { l with lostTotal := l.lostTotal + 1 }

/-- A LOGFAIL copy or bypass entry that failed is lost (R290). -/
def lostCopy (t : WTarget) (s : State) : State :=
  match t with
  | .logOther => s.upLog fun l => { l with lostTotal := l.lostTotal + 1 }
  | _ => s

/-- Enters error `x` as a new entry, or counts it in LOST (R285, last two cases). `copy` asks for its copy. -/
def enterNew (x : ErrIn) (copy : Bool) (s0 : State) : State :=
  let s := summarise s0
  match freeEntry s with
  | some e => if copy then askCopy e (putEntry e (entryOf s x) s) else putEntry e (entryOf s x) s
  | none => countLost x.cls s

/-- Merges an error into entry `e` (R285). -/
def mergeInto (e : Nat) (s : State) : State :=
  match s.logEnt e with
  | some y => s.setLogEnt e (some { y with count := holdInc y.count 1, multi := true, last := s.glb.now })
  | none => s

/-- R285 for class CE, which never escalates. -/
def logCE (x : ErrIn) (s : State) : State :=
  if s.log.bypass then bypassWrite x s
  else
    match findOpen s clsCE x.unit with
    | some e => mergeInto e s
    | none => enterNew x false s

/-- Logs a CE of a kind with its unit. -/
def logCEKind (k : ErrKind) (u : ErrUnit) (detail : BitVec 256) (s : State) : State := logCE (mkErr k u detail) s

/-- ATTN (R42): some LOGFAIL register valid, or an unacknowledged UC-B or FATAL entry. -/
def attn (s : State) : Bool :=
  ((List.range 4).any fun n => bitAt (s.logfail n) 0) ||
  ((List.range 64).any fun e =>
    match s.logEnt e with
    | some x => (x.cls = clsUCB || x.cls = clsFatal) && !x.acked
    | none => false)

/-! ### Violation reports -/

/-- Violation kinds (Table 5-5). -/
def vNoRegion : Byte := 0x01
def vColour : Byte := 0x02
def vAlign : Byte := 0x03
def vKindRsvd : Byte := 0x04
def vSpan : Byte := 0x05
def vRsvdWrite : Byte := 0x06
def vSealed : Byte := 0x07
def vMode : Byte := 0x08
def vClaim : Byte := 0x09
def vPort : Byte := 0x0A

/-- What a report says besides kind and time (Table 5-6); `region` none is 0x1FFF. -/
structure Viol where
  kind : Byte
  gate : BitVec 2
  unit : BitVec 4
  access : BitVec 4
  addr : BitVec 64
  reqid : BitVec 16
  port : BitVec 8
  colour : BitVec 8
  region : Option Nat
  data : DW
deriving DecidableEq, Repr

/-- The report's eight DWs. -/
def violWords (v : Viol) (ten : BitVec 8) (now : BitVec 64) : BitVec 256 :=
  let dw2 : DW := at32 v.kind 0 ||| at32 v.gate 8 ||| at32 v.unit 10 ||| at32 v.access 16
  let dw3 : DW := at32 v.reqid 0 ||| at32 v.port 16 ||| at32 v.colour 24
  let reg : BitVec 13 := match v.region with | some k => BitVec.ofNat 13 k | none => 0x1FFF
  let dw4 : DW := at32 reg 0 ||| at32 ten 16
  now ++ v.data ++ dw4 ++ dw3 ++ dw2 ++ v.addr

/-- R97: the log copy of a sealed tenant's report carries ADDR 0, DATA 0 and REGION 0x1FFF. -/
def redact (v : Viol) : Viol := { v with addr := 0, data := 0, region := none }

/-- Whether a tenant's record holds a colour (R245). -/
def holdsColour (s : State) (t : Nat) (c : BitVec 8) : Bool := (s.tenantR t).coloured && decide ((s.tenantR t).colour = c)

/-- The tenant that owns a colour: tenant 0 for its previous colour (R248), tenant 0 where none owns it (R96). -/
def tenantOfColour (s : State) (c : BitVec 8) : BitVec 8 :=
  if s.gates.prevColour = some c then 0
  else
    match (List.range 256).find? fun t => holdsColour s t c with
    | some t => BitVec.ofNat 8 t
    | none => 0

/-- A 48-bit count that holds, with the mark that it has (R269). -/
def satAdd (v : BitVec 48) (n : Nat) : BitVec 48 × Bool := (holdInc v n, decide (2 ^ 48 - 1 ≤ v.toNat + n))

/-- A report charged to tenant `t`: GT_VIOL_CNT, the tally, TC counters are AON's; GT_VIOL_LAST takes it whole, and the log a
CE of unit gate and tenant (R96, R97). -/
def report (v : Viol) (t : BitVec 8) (s : State) : State :=
  let s1 := bump (tenPage t.toNat + 0xF00) s
  let y := s1.tallyAt t.toNat
  let s2 := s1.setTally t.toNat { y with viol := (satAdd y.viol 1).1, sat := y.sat || (satAdd y.viol 1).2 }
  let s3 := s2.setViolLast t.toNat (violWords v t s.glb.now)
  let shown := if (s.tenantR t.toNat).isSealed then redact v else v
  logCEKind .violation (uGateTenant v.gate t) (violWords shown t s.glb.now) s3

end Sys2Proof.Machine
end

