-- ==== Sys2Proof/Machine/SrcOps.lean ====
section
/-! DEFINITION. The source operations that several commands share: which entry an event uses, states and their mirror
updates, pool slots, folds, returns and withdraws (files 04, 06, 10, 11). -/

namespace Sys2Proof.Machine

/-! ### Profiles (Table 3-3) -/

def pBalanced : BitVec 2 := 0
def pLatency : BitVec 2 := 1
def pThroughput : BitVec 2 := 2
def pFrugal : BitVec 2 := 3

/-- Number of this block, its strap, and whether it names itself in a remote entry. -/
def ownBlk (s : State) : BitVec 11 := s.pwr.straps.blknum
def strapB (s : State) : Bool := s.pwr.straps.twin

/-! ### Domains -/

/-- Domain `d` is powered and ready (PWR_STAT, Table 17-2). -/
def domOn (s : State) (d : Nat) : Bool := bitAt s.pwr.on d

/-- PWR_ON_REQ of domain `d` rises. -/
def powerOn (d : Nat) (s : State) : State :=
  s.upPwr fun p => { p with req := p.req ||| (1#30 <<< d), want := p.want &&& ~~~(1#30 <<< d), late := p.late &&& ~~~(1#30 <<< d) }

/-- Asks for a domain that is off. PWR_ON_REQ rises again only after PWR_ON_ACK is low: until then the wish is kept (R40). -/
def wake (d : Nat) (s : State) : State :=
  if domOn s d || bitAt s.pwr.req d then s
  else if bitAt s.pwr.ack d then s.upPwr fun p => { p with want := p.want ||| (1#30 <<< d) }
  else powerOn d s

/-! ### Epochs and entries (R182, R184, R188) -/

/-- "E at or after X": (E − X) modulo 65,536 is below 32,768 (R182). -/
def atOrAfter (e x : BitVec 16) : Bool := decide ((e - x).toNat < 32768)

/-- The entry of source `k` for a message of epoch `e` (R184). -/
def srcEntryAt (s : State) (k : Nat) (e : BitVec 16) : SrcEntry :=
  match s.shadow k with
  | some sh => if atOrAfter e sh.epoch then sh.entry else s.main k
  | none => s.main k

/-- The entry in force now (R184 at the epoch in force). -/
def srcNow (s : State) (k : Nat) : SrcEntry := srcEntryAt s k s.glb.epoch

/-- The entry that an outstanding event uses (R184). An event made pending while CAPTURE is 1 takes the configuration in
force when capture ends, so until then the one in force now (R307). -/
def evEntry (s : State) (k : Nat) (e : Ev) : SrcEntry :=
  match e.carry with
  | some c => c
  | none => srcEntryAt s k (if e.capture then s.glb.epoch else e.epoch)

/-- The version of an object that an event of epoch `e` uses (R188). -/
def verAt {α : Type} (v : Ver α) (e : BitVec 16) : α := if atOrAfter e v.x then v.cur else v.prior

def ringAt (s : State) (r : Nat) (e : BitVec 16) : RingEnt := verAt (s.ringV r) e
def ringNow (s : State) (r : Nat) : RingEnt := (s.ringV r).cur
def remoteAt (s : State) (k : Nat) (e : BitVec 16) : Reg64 := verAt (s.remoteV k) e
def mcastAt (s : State) (k : Nat) (e : BitVec 16) : McSet := verAt (s.mcastV k) e

/-- A remote entry that leaves this block: EN = 1 and another block's number; 0x7FF means this block (R113, R234, R235). -/
def remLeaves (s : State) (w : Reg64) : Bool := remEn w && decide (remBlk w ≠ ownBlk s) && decide (remBlk w ≠ 0x7FF)

/-- An entry counts as EN = 1 for a message of epoch `ep`: not MODE 11 or DEST type 11 (R65), and with DEST type 10 an index below 8,192,
MODE 00 and a remote entry of the source's tenant in the version of that epoch (R188, R235). -/
def srcLive (s : State) (e : SrcEntry) (ep : BitVec 16) : Bool :=
  srcEn e && decide (srcMode e ≠ 3) && decide (srcDestType e ≠ 3) &&
    (decide (srcDestType e ≠ 2) ||
      (decide ((srcDestIdx e).toNat < 8192) && decide (srcMode e = 0) &&
        decide (remTen (remoteAt s (srcDestIdx e).toNat ep) = srcTen e)))

/-- Where an event of entry `e` and epoch `ep` goes (Table 4-1, R113, R235). -/
def destOf (s : State) (e : SrcEntry) (ep : BitVec 16) : Dest :=
  match (srcDestType e).toNat with
  | 1 => .mcast (srcDestIdx e).toNat
  | 2 =>
    if remLeaves s (remoteAt s (srcDestIdx e).toNat ep) then
      .remote (remBlk (remoteAt s (srcDestIdx e).toNat ep)) (remRing (remoteAt s (srcDestIdx e).toNat ep))
    else .half (remRing (remoteAt s (srcDestIdx e).toNat ep))
  | _ => .half (srcDestIdx e)

/-! ### Halves (R125, R289) -/

/-- EN of the half in force; a quarantined half reads 0 (Table 16-4). -/
def halfEn (s : State) (r : Nat) : Bool := ringEn (ringNow s r) && !(s.half r).quarantined

/-- LN_STAT.QUIESCED: quiesced, or EN = 0 (Table 7-7). -/
def halfQui (s : State) (r : Nat) : Bool := (s.half r).quiesced || !halfEn s r

/-- Healthy: EN = 1, neither FAULTED nor QUIESCED (R125). -/
def healthy (s : State) (r : Nat) : Bool := halfEn s r && !(s.half r).faulted && !(s.half r).quiesced

/-- Healthy and not FULL: a request for it is ready (R113). -/
def halfOpen (s : State) (r : Nat) : Bool := healthy s r && !(s.half r).full

/-! ### Soaking (R148, R151) -/

/-- Group `g` is in hold-off; a quarantined group never soaks (Table 16-4). -/
def soaking (s : State) (g : Nat) : Bool := (s.grun g).soaking && !s.dlv.qGroup.contains g

/-- In LATENCY, levels 12–15 are exempt (R151). -/
def exempt (s : State) (lvl : BitVec 4) : Bool := decide (s.glb.prfActive = pLatency) && decide (12 ≤ lvl.toNat)

/-- The state of an event that becomes pending under entry `e`: HELD while its group soaks, else PENDING (Table 6-2). -/
def pendState (s : State) (e : SrcEntry) : SState :=
  if soaking s (srcGroup e).toNat && !exempt s (srcLvl e) then .held else .pending

/-! ### Mirror updates (R196, R198) -/

/-- The range of a source (R196). -/
def rangeOf (k : Nat) : Nat := k / 64

/-- MIRROR messages in the queue; a snapshot that has entered it is not one of them. -/
def mirrorCount (q : List SMsg) : Nat := q.countP fun m => match m with | .mirror _ _ => true | _ => false

/-- Inserts a range into a rising list. -/
def addRange (g : Nat) : List Nat → List Nat
  | [] => [g]
  | h :: r => if g < h then g :: h :: r else if g = h then h :: r else h :: addRange g r

/-- Mirror updates go to the partner: PAIRED, DEGRADED, and in step 4 of a Rewash behind each snapshot. -/
def mirroring (s : State) : Bool :=
  match s.twin.state with
  | .paired | .degraded => true
  | .rewash => s.twin.snapPhase
  | _ => false

/-- Queues the update for source `k` (R196, R198): a MIRROR message; or, while DEGRADED outside the snapshot phase, the range
becomes dirty with a DIRTY message; a range that is dirty queues nothing. -/
def queueMirror (k : Nat) (m : BitVec 2) (s : State) : State :=
  if !mirroring s then s
  else if s.twin.txDirty.contains (rangeOf k) then s
  else if (s.twin.state = .degraded ∧ !s.twin.snapPhase) ∨ (s.twin.state = .rewash ∧ 3072 ≤ mirrorCount s.twin.mirrorQ) then
    bump (smtPage + 0x008)
      (s.upTwin fun w => { w with txDirty := addRange (rangeOf k) w.txDirty, notice := addRange (rangeOf k) w.notice })
  else
    s.upTwin fun w =>
      let q := w.mirrorQ ++ [.mirror (BitVec.ofNat 18 k) m]
      if 3072 ≤ mirrorCount q ∧ w.state ≠ .rewash then { w with mirrorQ := q, state := .degraded, snapPhase := false } else { w with mirrorQ := q }

/-- No unacknowledged bundle holds a record of the source. -/
def srcAcked (s : State) (src : BitVec 18) : Bool := !s.relay.bundles.any fun b => b.srcs.contains src

/-- What the partner holds the source as: while a record of it is in an unacknowledged bundle, still P (R239). -/
def mirrorNow (s : State) (k : Nat) : BitVec 2 :=
  let m := mirrorOf (s.dyn k).st
  if srcAcked s (BitVec.ofNat 18 k) || m.getLsbD 0 then m else 1

/-- A change of a source's record that the mirror follows: an apply, a launch, a completion, a withdraw or a quarantine
(R196). An update that leaves P waits for the last bundle with a record of the source (R239). -/
def putDyn (k : Nat) (d : SrcDyn) (s : State) : State :=
  let t := s.setDyn k d
  if mirrorNow s k = mirrorNow t k then t else queueMirror k (mirrorNow t k) t

/-! ### Pool slots (R81, R82) -/

/-- Lowest index from `n` up that a rising list does not hold. -/
def lowestGap : List Nat → Nat → Nat
  | [], n => n
  | i :: r, n => if i = n then lowestGap r (n + 1) else lowestGap r n

/-- Indices of a slice's slots in use. -/
def slotsOf (s : State) (sl : Nat) : List Nat :=
  s.slc.pool.filterMap fun p => if p.1 / 8192 = sl then some (p.1 % 8192) else none

/-- Slots in use in a slice, as SLC_POOL_USED shows (Table 4-7). -/
def poolUsed (s : State) (sl : Nat) : Nat := (slotsOf s sl).length

/-- The free slot, within slice `sl`, that an apply of source `k` takes; which one is left open (log entry 6). -/
def pickSlot (s : State) (sl k : Nat) : Nat :=
  let i := (Config.slot s.stepNo k).toNat
  if (s.slot (8192 * sl + i)).isNone then i else lowestGap (slotsOf s sl) 0

/-- Takes a free slot for source `k`; none free counts SLC_POOL_EXH (R81, R82). -/
def takeSlot (k : Nat) (v : Slot) (s : State) : State × Option Nat :=
  let sl := sliceOf (BitVec.ofNat 18 k)
  let i := 8192 * sl + pickSlot s sl k
  if lowestGap (slotsOf s sl) 0 < 8192 then (s.setSlot i (some v), some i)
  else (perf (dSlc sl) 0x23 (bump (slcPage sl + 0x008) s), none)

/-- Frees a slot, where there is one. -/
def freeSlot (sl : Option Nat) (s : State) : State :=
  match sl with
  | some i => s.setSlot i none
  | none => s

/-- Frees an event's slot, where there is an event. -/
def freeEv (e : Option Ev) (s : State) : State :=
  match e with
  | some x => freeSlot x.slot s
  | none => s

/-- The slot of an event, if it has one in use. -/
def evSlot (s : State) (e : Ev) : Option (BitVec 28 × BitVec 24 × BitVec 64 × Bool) :=
  match e.slot with
  | none => none
  | some i =>
    match s.slot i with
    | some (.used c f t l) => some (c, f, t, l)
    | _ => none

/-- A fresh event of epoch `ep` in slot `sl`. -/
def newEv (s : State) (ep : BitVec 16) (sl : Option Nat) (dup : Bool) : Ev :=
  { epoch := ep, slot := sl, frozen := false, dup, carry := none, capture := s.glb.capture, takeover := false }

/-- Adds `n` repeats to an event's slot; a slotless event keeps no detail (R77, R82). `cookie` is the last cookie where COOKIE_POL
is 0. -/
def foldSlot (e : Ev) (n : Nat) (cookie : Option (BitVec 28)) (s : State) : State :=
  match e.slot with
  | none => s
  | some i =>
    match s.slot i with
    | some (.used c f t l) => s.setSlot i (some (.used (cookie.getD c) (holdInc f n) t l))
    | _ => s

/-! ### Tally (R268, R269, R280) -/

/-- ACCEPTED rises by `n` doorbells. -/
def tallyAccepted (t : BitVec 8) (n : Nat) (s : State) : State :=
  let y := s.tallyAt t.toNat
  bumpBy (tenPage t.toNat + 0x840) n
    (s.setTally t.toNat { y with accepted := (satAdd y.accepted n).1, sat := y.sat || (satAdd y.accepted n).2 })

/-- FOLDED rises by `n` doorbells. -/
def tallyFolded (t : BitVec 8) (n : Nat) (s : State) : State :=
  let y := s.tallyAt t.toNat
  bumpBy (tenPage t.toNat + 0x848) n
    (s.setTally t.toNat { y with folded := (satAdd y.folded n).1, sat := y.sat || (satAdd y.folded n).2 })

/-! ### Events -/

/-- R334: the REPEND event folds into the kept event, whose slot is unfrozen. -/
def foldRepend (k : Nat) (s : State) : State :=
  let d := s.dyn k
  match d.ev, d.rep with
  | some e, some r =>
    let ent := evEntry s k e
    let kept := { e with frozen := false, dup := e.dup || r.dup }
    let s1 :=
      match evSlot s r with
      | some (c, f, _, _) => foldSlot e (1 + f.toNat) (if srcFirstPol ent then none else some c) s
      | none => foldSlot e 1 none s
    let s2 := freeSlot r.slot (s1.setDyn k { d with ev := some kept, rep := none })
    if r.takeover then s2 else tallyFolded (srcTen (evEntry s k r)) 1 s2
  | some e, none => s.setDyn k { d with ev := some { e with frozen := false } }
  | _, _ => s

/-- The return of an ISSUED source (Table 6-2): PENDING, or HELD if soaking, with slot and arrival time kept and REPEND folded.
Any withdraw outstanding is settled by the caller before. -/
def returnSource (k : Nat) (s : State) : State :=
  if (s.dyn k).st = .issued then
    let s1 := foldRepend k s
    let d := s1.dyn k
    match d.ev with
    | some e => putDyn k { d with st := pendState s1 (evEntry s1 k e), withdraw := none } s1
    | none => putDyn k { d with st := .idle, withdraw := none } s1
  else s

/-- A source leaves its outstanding first event: the REPEND event, if any, becomes the event, and the state is `withRep` of it;
else the event is gone and the state is `without`. The first event's slot and carry are freed (Table 6-2, R186). -/
def dropFirst (k : Nat) (withRep : Ev → SState) (without : SState) (s : State) : SrcDyn × State :=
  let d := s.dyn k
  match d.rep with
  | some r => ({ d with st := withRep r, ev := some r, rep := none, withdraw := none }, freeEv d.ev s)
  | none => ({ d with st := without, ev := none, withdraw := none }, freeEv d.ev s)

/-- The withdraw of a CANCEL or LEVEL_LO wins (Table 6-2): PENDING or HELD under REPEND, else IDLE. -/
def settleCancel (k : Nat) (s : State) : State :=
  let r := dropFirst k (fun e => pendState s (evEntry s k e)) .idle s
  putDyn k r.1 r.2

/-- The transition of launch (Table 6-2), from the MODE of the launched event. The mirror update is sent only if `mirror`: a
launch into a bundle defers it (R239). -/
def launchTransition (k : Nat) (mode : BitVec 2) (mirror : Bool) (s : State) : State :=
  let r :=
    if mode = 0 then dropFirst k (fun e => pendState s (evEntry s k e)) .idle s
    else dropFirst k (fun _ => .activePending) .active s
  if mirror then putDyn k r.1 r.2 else r.2.setDyn k r.1

/-! ### Withdraws (R117, R335) -/

/-- Rank of a purpose; quarantine is highest. -/
def purposeRank : Purpose → Nat
  | .quarantine => 2
  | .cancel _ => 1
  | .mask => 0

/-- A cause reaches an ISSUED source: it sends a withdraw, or raises the purpose of the one outstanding. The slot freezes while a
withdraw is out (R117, R335). -/
def sendWithdraw (k : Nat) (p : Purpose) (s : State) : State :=
  let d := s.dyn k
  let ev := d.ev.map fun e => { e with frozen := true }
  match d.withdraw with
  | none => perf (dSlc (sliceOf (BitVec.ofNat 18 k))) 0x26 (s.setDyn k { d with ev, withdraw := some p })
  | some q => s.setDyn k { d with ev, withdraw := some (if purposeRank q ≤ purposeRank p then p else q) }

/-- A CANCEL or LEVEL_LO at an ISSUED source clears REPEND and frees its slot before the withdraw (Table 6-2). -/
def cancelIssued (k : Nat) (levelLo : Bool) (s : State) : State :=
  let d := s.dyn k
  sendWithdraw k (.cancel levelLo) (freeEv d.rep (s.setDyn k { d with rep := none, line := d.line && !levelLo }))

/-! ### Completion (R106, R107, R109) -/

/-- An event that no doorbell made: COOKIE 0, FOLDS 0 and the time now, under the entry in force (R105, R121). -/
def ownEvent (k : Nat) (dup : Bool) (s : State) : State × Ev :=
  let r := takeSlot k (.used 0 0 s.glb.now dup) s
  (r.1, newEv s s.glb.epoch r.2 dup)

/-- A completion of source `k` in ACTIVE or ACTIVE_PENDING (Table 6-2). The MODE is that of the entry in force. -/
def complete (k : Nat) (s : State) : State :=
  let d := s.dyn k
  match d.st with
  | .active =>
    if srcMode (srcNow s k) = 1 ∧ d.line then
      let r := ownEvent k false s
      putDyn k { d with st := pendState s (srcNow s k), ev := some r.2, evMode := 1 } r.1
    else putDyn k { d with st := .idle } s
  | .activePending =>
    match d.ev with
    | some e => putDyn k { d with st := pendState s (evEntry s k e) } s
    | none => putDyn k { d with st := .idle } s
  | _ => s

/-! ### Mask (R110, R111, R112) -/

/-- MASK of an entry set in the main table, in the shadow and in each carry of the source's events (R110: under every
epoch). -/
def setMaskAll (k : Nat) (v : Bool) (s : State) : State :=
  let s1 := s.setMain k (srcSetMask (s.main k) v)
  let s2 := s1.setShadow k ((s1.shadow k).map fun sh => { sh with entry := srcSetMask sh.entry v })
  let d := s2.dyn k
  let up := fun (e : Ev) => { e with carry := e.carry.map fun c => srcSetMask c v }
  s2.setDyn k { d with ev := d.ev.map up, rep := d.rep.map up }

/-- The mask operation: MASK takes the value, and a mask of an ISSUED source sends a withdraw. -/
def maskOp (k : Nat) (v : Bool) (s : State) : State :=
  let s1 := setMaskAll k v s
  if v && decide ((s1.dyn k).st = .issued) then sendWithdraw k .mask s1 else s1

/-! ### Soaks (R149–R155) -/

/-- Every source whose record is listed, with what it holds. -/
def listedSources (s : State) : List Nat := s.slc.dyn.map Prod.fst

/-- A PENDING source whose event's group is `g` and not exempt goes to HELD; the mirror state does not change. -/
def holdOne (g : Nat) (k : Nat) (s : State) : State :=
  let d := s.dyn k
  match d.st, d.ev with
  | .pending, some e =>
    if (srcGroup (evEntry s k e)).toNat = g ∧ !exempt s (srcLvl (evEntry s k e)) then
      perf (dSlc (sliceOf (BitVec.ofNat 18 k))) 0x25 (s.setDyn k { d with st := .held })
    else s
  | _, _ => s

/-- A HELD source whose event's group is `g` goes to PENDING, keeping slot and arrival time. -/
def unholdOne (g : Nat) (k : Nat) (s : State) : State :=
  let d := s.dyn k
  match d.st, d.ev with
  | .held, some e => if (srcGroup (evEntry s k e)).toNat = g then s.setDyn k { d with st := .pending } else s
  | _, _ => s

/-- Hold-off of group `g` begins at the launch of one of its events (R149). -/
def soakBegin (g : Nat) (s : State) : State :=
  let s1 := s.setGrun g { count := 0, soaking := true, endAt := s.glb.now + (grpSoak (s.group g)).setWidth 64 * 16,
                          since := s.glb.ticks }
  (listedSources s1).foldl (fun s k => holdOne g k s) (bump (dlvPage + 0x0D8) s1)

/-- Hold-off of group `g` ends (R149); COUNT starts from zero. -/
def soakFinish (g : Nat) (s : State) : State :=
  (listedSources s).foldl (fun s k => unholdOne g k s) (s.setGrun g { s.grun g with soaking := false, count := 0 })

/-- The launch of an event of group `g` counts (R149). No soak begins while STALLED is 1 (R154), nor in a quarantined group. -/
def countLaunch (g : Nat) (s : State) : State :=
  if !grpEn g (s.group g) || s.dlv.qGroup.contains g || s.glb.stalled || (s.grun g).soaking then s
  else if grpBurst (s.group g) ≤ (s.grun g).count + 1 then soakBegin g s
  else s.setGrun g { s.grun g with count := (s.grun g).count + 1 }

end Sys2Proof.Machine
end

