-- ==== Sys2Proof/Machine/DlvOps.lean ====
section
/-! DEFINITION. The delivery operations that several commands share: gate decisions, ring space, tokens, returns, quiesce,
fault and restart of halves, residue, write commands and notification (files 05, 07, 08, 10). -/

namespace Sys2Proof.Machine

/-! ### Gate decisions (R85, R86) -/

/-- What a gate decides: the admitting region, or a violation kind with the region named. -/
inductive GateRes where
  | lets (key : Nat)
  | fault (kind : Byte) (region : Option Nat)
deriving DecidableEq, Repr

/-- Keys of a gate's regions that can be valid, in ascending number. -/
def gateKeys (s : State) (gate : Nat) : List Nat :=
  (if gate ≤ 1 then [4096 * gate] else []) ++
    (s.gates.region.map Prod.fst).filter fun k => k / 4096 = gate && (k ≠ 4096 * gate || gate = 2)

/-- The region may let a message in: VALID, and not quarantined (Table 16-4). -/
def regUsable (s : State) (k : Nat) : Bool := regValid (s.region k) && !s.gates.qRegion.contains k

/-- The region contains the bytes `a` to `a + len − 1`. -/
def regHas (r : Region) (a len : Nat) : Bool := decide (regStart r ≤ a) && decide (a + len - 1 ≤ regEnd r)

/-- R86 for an access of `len` bytes at `a` that carries one of the colours `cols`. With no colour to compare, a write that no region
contains whole is NO_REGION (R87). -/
def gateDecide (s : State) (gate a len : Nat) (cols : List (BitVec 8)) : GateRes :=
  let ks := (gateKeys s gate).filter fun k => regUsable s k
  match ks.find? fun k => regHas (s.region k) a len && cols.contains (regColour (s.region k)) with
  | some k => .lets k
  | none =>
    match ks.find? fun k => regHas (s.region k) a len with
    | some k => .fault vColour (some (k % 4096))
    | none =>
      if cols = [] then .fault vNoRegion none
      else
        match ks.find? fun k => regHas (s.region k) a 1 with
        | some k => .fault vSpan (some (k % 4096))
        | none => .fault vNoRegion none

/-- Colours that let a write in to a target of tenant `t` at the delivery gate (R87), tenant 0's previous colour among them
(R248). -/
def coloursOf (s : State) (t : BitVec 8) : List (BitVec 8) :=
  (if (s.tenantR t.toNat).coloured then [(s.tenantR t.toNat).colour] else []) ++
    (if t = 0 then s.gates.prevColour.toList else [])

/-- The colour a delivery-gate report names: the recorded colour of the tenant, 0 where it holds none. -/
def colourShown (s : State) (t : BitVec 8) : BitVec 8 :=
  if (s.tenantR t.toNat).coloured then (s.tenantR t.toNat).colour else 0

/-- The report of a delivery-gate fault (Tables 5-2 and 5-6, R96). -/
def dlvViol (s : State) (kind : Byte) (region : Option Nat) (ch : Nat) (access : BitVec 4) (addr : BitVec 64) (t : BitVec 8)
    (data : DW) : Viol :=
  { kind, gate := 2, unit := BitVec.ofNat 4 ch, access, addr, reqid := 0, port := 0xFF, colour := colourShown s t, region,
    data }

/-! ### Space (R130) -/

/-- Used count of a half: (PROD + RESV − CONS) modulo 2^31. -/
def usedOf (s : State) (r : Nat) : Nat :=
  ((s.half r).prod + BitVec.ofNat 31 (s.half r).resv - (s.half r).cons).toNat

/-- Records of a half under its entry in force. -/
def halfSize (s : State) (r : Nat) : Nat := ringRecs (ringNow s r)

/-- FULL follows the used count; a rise is counted (R130, Table 15-5). -/
def noteFull (r : Nat) (s : State) : State :=
  let h := s.half r
  let f := decide (halfSize s r ≤ usedOf s r)
  let s1 := s.setHalf r { h with full := f }
  if f && !h.full then
    bump (tenPage (ringTen (ringNow s r)).toNat + 0x860) (perf dDlv 0x37 (bump (dlvPage + 0x0A8) s1))
  else s1

/-- A request takes a reservation. -/
def reserve (r : Nat) (s : State) : State := noteFull r (s.setHalf r { s.half r with resv := (s.half r).resv + 1 })

/-- A reservation is given back. -/
def release (r : Nat) (s : State) : State := noteFull r (s.setHalf r { s.half r with resv := (s.half r).resv - 1 })

/-! ### Tokens (R154, R157) -/

/-- One record in the units of the buckets. -/
def token : Nat := 1000000

/-- The guarantee bucket of half `r`, where it holds a whole record. -/
def guarToken (r : Nat) (s : State) : Option State :=
  if ringGuar (ringNow s r) ≠ 0 ∧ token ≤ s.bucket r then some (s.setBucket r (s.bucket r - token)) else none

/-- The pool bucket, where it holds a whole record. -/
def poolToken (s : State) : Option State :=
  if token ≤ s.dlv.poolBucket then some (s.upDlv fun d => { d with poolBucket := d.poolBucket - token }) else none

/-- A token for half `r`: none is taken during a stall (R154). -/
def anyToken (r : Nat) (s : State) : Option State :=
  if s.glb.stalled then some s
  else
    match guarToken r s with
    | some t => some t
    | none => poolToken s

/-- A token for a request that arrives at level `l`: behind a waiting stage only a guarantee token serves (R157). -/
def entryToken (l r : Nat) (s : State) : Option State :=
  if s.paceQ l = [] || s.glb.stalled then anyToken r s else guarToken r s

/-! ### Requests -/

/-- Request with its age taken now joins its level queue, or the presented members (R136, R143). -/
def present (q : Req) (s : State) : State :=
  let q1 := { q with age := s.stepNo }
  match q.kind with
  | .member _ _ | .residue _ _ => s.upDlv fun d => { d with members := d.members ++ [q1] }
  | _ => s.setLq q.lvl.toNat (s.lq q.lvl.toNat ++ [q1])

/-- A request that finds no token waits in the pacer stage of its level (R157). -/
def paceWait (q : Req) (s : State) : State :=
  perf dDlv 0x38 (bump (dlvPage + 0x0E0) (s.setPaceQ q.lvl.toNat (s.paceQ q.lvl.toNat ++ [q])))

/-- A member or residue request with its reservation takes a token or waits for one. -/
def presentMember (q : Req) (r : Nat) (s : State) : State :=
  match entryToken q.lvl.toNat r s with
  | some t => present q t
  | none => paceWait q s

/-- The requests of a granted write. -/
def grantReqs : Grant → List Req
  | .recs _ qs _ _ _ _ => qs
  | .own _ => []

/-- Every ungranted request that has entered DLV: level queues, pacer stages, Hamper, members, in that order. -/
def ungranted (s : State) : List Req :=
  (List.range 16).flatMap (fun l => s.lq l ++ s.paceQ l) ++ s.dlv.hamper ++ s.dlv.members

/-- Requests still entering their level queues. -/
def entering (s : State) : List Req := (List.range 16).flatMap fun l => s.selQ l

/-- Granted requests of all channels. -/
def grantedReqs (s : State) : List Req := (List.range 4).flatMap fun c => (s.grants c).flatMap grantReqs

/-- Removes every ungranted request for which `p` holds. -/
def removeReqs (p : Req → Bool) (s : State) : State :=
  let s1 := (List.range 16).foldl
    (fun s l => (s.setLq l ((s.lq l).filter fun q => !p q)).setPaceQ l ((s.paceQ l).filter fun q => !p q)) s
  s1.upDlv fun d => { d with hamper := d.hamper.filter fun q => !p q, members := d.members.filter fun q => !p q }

/-- The half of this block that a request is for. -/
def reqHalf (q : Req) : Option Nat :=
  match q.dest with
  | .half r => some r.toNat
  | _ => none

/-- A request is for half `r`. -/
def forHalf (r : Nat) (q : Req) : Bool := decide (reqHalf q = some r)

/-- A request is a member or residue request of source `k`. -/
def ofMcast (k : Nat) (q : Req) : Bool :=
  match q.kind with
  | .member src _ | .residue src _ => decide (src.toNat = k)
  | _ => false

/-- A member or residue request of any source. -/
def isMember (q : Req) : Bool :=
  match q.kind with
  | .member _ _ | .residue _ _ => true
  | _ => false

/-- A request of source `k`, whole or in part. -/
def ofSource (k : Nat) (q : Req) : Bool :=
  match q.kind with
  | .event src | .member src _ | .residue src _ => decide (src.toNat = k)
  | _ => false

/-! ### Leaving ISSUED -/

/-- CANCELs and withdraws that found nothing to retract (Table 6-13). -/
def cancelLate (k : Nat) (s : State) : State := bump (slcPage (sliceOf (BitVec.ofNat 18 k)) + 0x040) s

/-- The source is QUARANTINED: slots freed (Table 6-2). -/
def toQuarantine (k : Nat) (s : State) : State :=
  let d := s.dyn k
  putDyn k { d with st := .quarantined, ev := none, rep := none, withdraw := none } (freeEv d.rep (freeEv d.ev s))

/-- A withdraw wins with the outcome of its purpose (Table 6-2, R335). -/
def settleWin (k : Nat) (s : State) : State :=
  match (s.dyn k).withdraw with
  | some .quarantine => toQuarantine k s
  | some (.cancel _) => settleCancel k s
  | some .mask => returnSource k s
  | none => returnSource k s

/-- The source takes the transition of launch; a withdraw that lost counts, and a quarantine takes effect then (R118, R335). -/
def afterLaunch (k : Nat) (mode : BitVec 2) (mirror : Bool) (s : State) : State :=
  let w := (s.dyn k).withdraw
  let s1 := launchTransition k mode mirror s
  match w with
  | some (.cancel _) => cancelLate k s1
  | some .quarantine => toQuarantine k s1
  | _ => s1

/-- MODE of a source's outstanding event. -/
def evModeOf (s : State) (k : Nat) : BitVec 2 :=
  match (s.dyn k).ev with
  | some e => srcMode (evEntry s k e)
  | none => 0

/-! ### Multicast (R143, R144) -/

/-- Member or residue requests of source `k` remain somewhere. -/
def mcOpen (s : State) (k : Nat) : Bool := (ungranted s ++ grantedReqs s).any (ofMcast k)

/-- Once no member request and no residue bit remain, the source takes the transition of launch (R144). -/
def mcFinish (k : Nat) (s : State) : State :=
  match s.mc k with
  | some run => if run.residue = [] ∧ !mcOpen s k then afterLaunch k (evModeOf s k) true (s.setMc k none) else s
  | none => s

/-- Some member record of source `k` is launched or granted. -/
def mcStarted (s : State) (k : Nat) : Bool :=
  (match s.mc k with | some r => r.launched.isSome | none => false) || (grantedReqs s).any (ofMcast k)

/-- `n` members skipped are counted (Table 7-13). -/
def countSkips (n : Nat) (s : State) : State := bumpBy (dlvPage + 0x0B8) n s

/-- A member becomes a residue bit again. -/
def residueAdd (k m : Nat) (s : State) : State :=
  match s.mc k with
  | some run => s.setMc k (some { run with residue := addRange m run.residue })
  | none => s

/-- Sources whose multicast event is expanded. -/
def mcSources (s : State) : List Nat := s.dlv.mc.map Prod.fst

/-- The residue members of source `k` on ring `r`. -/
def residueOn (s : State) (k r : Nat) : List Nat :=
  match s.mc k with
  | some run => run.residue.filter fun m => decide ((run.rings.getD m 0).toNat = r)
  | none => []

/-- The level and epoch of source `k`'s event. -/
def evLvl (s : State) (k : Nat) : BitVec 4 :=
  match (s.dyn k).ev with
  | some e => srcLvl (evEntry s k e)
  | none => 0
def evEpoch (s : State) (k : Nat) : BitVec 16 :=
  match (s.dyn k).ev with
  | some e => e.epoch
  | none => 0

/-- A residue member whose half has space presents its request with a reservation and a token (R143, R157). -/
def presentResidue (k r m : Nat) (s : State) : State :=
  if halfOpen s r then
    match s.mc k with
    | some run =>
      presentMember
        { kind := .residue (BitVec.ofNat 18 k) m, lvl := evLvl s k, dest := .half (BitVec.ofNat 15 r), epoch := evEpoch s k,
          age := s.stepNo, sel := run.sel, res := true } r
        (reserve r (s.setMc k (some { run with residue := run.residue.erase m })))
    | none => s
  else s

/-- Residue members of half `r` present while it has space. R143 gives no order between the sources that wait: the model goes in ascending
source number (DESIGN CHOICE, log entry 125). -/
def presentResidues (r : Nat) (s : State) : State :=
  (mcSources s).foldl (fun s k => (residueOn s k r).foldl (fun s m => presentResidue k r m s) s) s

/-- Residue members of every half present where it has space. -/
def presentAll (s : State) : State := (s.dlv.half.map Prod.fst).foldl (fun s r => presentResidues r s) s

/-- Space has come free in half `r`: a reservation is given back and waiting residue presents. -/
def releaseRoom (r : Nat) (s : State) : State := presentResidues r (release r s)

/-- Residue bits on a half that is FAULTED or QUIESCED are cleared and counted as skipped (R143). -/
def skipResidues (r : Nat) (s : State) : State :=
  (mcSources s).foldl
    (fun s k =>
      match s.mc k with
      | some run =>
        let gone := residueOn s k r
        if gone = [] then s
        else mcFinish k (countSkips gone.length (s.setMc k (some { run with residue := run.residue.filter fun m => !gone.contains m })))
      | none => s) s

/-- A member request of source `k` ends as a skip (R143, R144). -/
def skipMember (k : Nat) (s : State) : State := mcFinish k (countSkips 1 s)

/-! ### Returns (R113, R140, Table 6-8) -/

/-- Replaces a FENCE by `u` of it. -/
def setFence (id : Nat) (u : Fence → Fence) (s : State) : State :=
  s.upIntake fun i => { i with fences := i.fences.map fun g => if g.id = id then u g else g }

/-- A FENCE goes back to waiting for its request (R189). -/
def fenceBack (id : Nat) (s : State) : State :=
  setFence id (fun f => { f with requested := false }) s

/-- A record that comes back stands ahead of what left the inbox after it, and of what has not left (R242). -/
def insertInbox (b : InBundle) : List InBundle → List InBundle
  | [] => [b]
  | c :: r =>
    let later := match b.key, c.key with | some x, some y => decide (x < y) | _, _ => true
    if c.ring = b.ring ∧ later = true then b :: c :: r else c :: insertInbox b r

/-- What becomes of the work behind a returned request: an event's source goes back, or its withdraw has won; a FENCE waits for
its request again; a relayed record goes back to its place in the inbox; a member becomes residue; a SCAN_RESUME stays owed. -/
def backOut (q : Req) (s : State) : State :=
  match q.kind with
  | .event src => settleWin src.toNat s
  | .fence id => fenceBack id s
  | .relayed x t =>
    match q.dest with
    | .half r =>
      s.upRelay fun y =>
        { y with inbox := insertInbox { key := some q.sel, sess := none, ring := r, ten := t, recs := [x], epoch := q.epoch, badSince := none } y.inbox }
    | _ => s
  | .member src m | .residue src m => residueAdd src.toNat m s
  | .scanResume => s

/-- A request is returned: its reservation is released and the return counted (DLV_RETURN_CNT). -/
def returnReq (q : Req) (s : State) : State :=
  let s1 :=
    match q.res, reqHalf q with
    | true, some r => release r s
    | _, _ => s
  bump (dlvPage + 0x088) (backOut q s1)

/-- A dead slot (R118). -/
def deadSlot (s : State) : State := perf dDlv 0x34 (bump (dlvPage + 0x080) s)

/-! ### Fault, quiesce and restart of a half (R125, R145, R146) -/

/-- Outstanding writes of the half launched before it became FAULTED log nothing further (R146). -/
def staleWrites (r : Nat) (s : State) : State :=
  s.upDlv fun d =>
    { d with outst := d.outst.map fun p =>
        match p.2 with
        | some w => if w.target = .ring (BitVec.ofNat 15 r) then (p.1, some { w with stale := true }) else p
        | none => p }

/-- The half becomes FAULTED: residue on it is skipped (R143, R146). -/
def faultHalf (r : Nat) (s : State) : State :=
  if (s.half r).faulted then s
  else skipResidues r (staleWrites r (s.setHalf r { s.half r with faulted := true }))

/-- Steps 1 and 2 of Table 7-12: QUIESCED rises, ungranted requests for the half are returned, members skipped. -/
def quiesceHalf (r : Nat) (s : State) : State :=
  let qs := (ungranted s).filter (forHalf r)
  let s1 := removeReqs (forHalf r) (s.setHalf r { s.half r with quiesced := true })
  let s2 := qs.foldl
    (fun s q =>
      match q.kind with
      | .member src _ | .residue src _ => skipMember src.toNat (release r s)
      | _ => returnReq q s) s1
  skipResidues r s2

/-- The tenant of a ring entry is sealed on this block. -/
def sealedTen (s : State) (t : BitVec 8) : Bool := (s.tenantR t.toNat).isSealed

/-- Restart of a half (R125): indices, ARM, NLVL, FULL, FAULTED and QUIESCED cleared, RSIZE fixed; ungranted requests that hold a
reservation are returned. RGEN counts restarts since sealing (R255). -/
def restartHalf (r : Nat) (s : State) : State :=
  let held := fun q => forHalf r q && q.res
  let qs := (ungranted s).filter held
  let s1 := removeReqs held s
  let h := s1.half r
  let isS := sealedTen s (ringTen (ringNow s r))
  let s2 := s1.setHalf r
    { h with cons := 0, prod := 0, arm := false, nlvl := none, lastLvl := 0, resv := 0, full := false, faulted := false,
             quiesced := false, rsize32 := isS, recSeq := 0, seqHi := 0, rgen := if !isS then h.rgen else if h.rgenUsed then h.rgen + 1 else 0,
             rgenUsed := h.rgenUsed || isS,
             restarts := h.restarts + 1, quarantined := false,
             everEnabled := h.everEnabled || ringEn (ringNow s r) }
  presentResidues r (qs.foldl (fun s q => returnReq { q with res := false } s) s2)

/-! ### Writes (R27–R30) -/

/-- First free tag of channel `c` from `t` up, trying `n` of them. -/
def findTag (s : State) (c : Nat) : Nat → BitVec 12 → Option (BitVec 12)
  | 0, _ => none
  | n + 1, t => if (s.outst c t.toNat).isNone then some t else findTag s c n (t + 1)

/-- A free tag of channel `c`; which one is left open (log entry 5). -/
def freeTag (s : State) (c : Nat) : Option (BitVec 12) := findTag s c 4096 (Config.tag s.freeCtr)

/-- Outstanding writes of a channel. -/
def outstCount (s : State) (c : Nat) : Nat := s.dlv.outst.countP fun p => p.1 / 4096 = c && p.2.isSome

/-- Hands a write to channel `c` under `tag`. -/
def putWrite (c : Nat) (cls : BitVec 3) (tgt : WTarget) (addr : BitVec 64) (len : Nat) (ord ns : Bool) (alloc : BitVec 2)
    (colour : BitVec 8) (data : BitVec 512) (tag : BitVec 12) (s : State) : State :=
  let s1 := s.setOutst c tag.toNat (some { cls, target := tgt, addr, time := s.glb.now, late := false, stale := false })
  perf dDlv 0x31 (perfUnit dDlv 1
    (s1.nextFree.emit (writeOut c (writeCmd addr len cls ord ns alloc colour tag) data)))

/-- An own write of class 010 or 100 waits on WCH0 at input 15 (R136). -/
def pushOwn (cls : BitVec 3) (tgt : WTarget) (addr : BitVec 64) (data : BitVec 512) (ten : BitVec 8) (s : State) : State :=
  s.upDlv fun d => { d with own := d.own ++ [{ cls, target := tgt, addr, data, ten, age := s.stepNo, copy := none }] }

/-- A copy waits there for the error ring (R290). -/
def pushCopy (c : CopyItem) (tgt : WTarget) (addr : BitVec 64) (data : BitVec 512) (s : State) : State :=
  s.upDlv fun d => { d with own := d.own ++ [{ cls := 3, target := tgt, addr, data, ten := 0, age := s.stepNo, copy := some c }] }

/-- The copy of a granted write. -/
def grantCopy (g : Grant) : Option CopyItem :=
  match g with
  | .own o => o.copy
  | .recs _ _ _ _ _ _ => none

/-- Copies formed that have not launched wait in the log again, ahead of the others: the ring they were formed for no longer takes them
(R290). -/
def takeBackCopies (s : State) : State :=
  let l := (s.grants 0).filterMap grantCopy ++ s.dlv.own.filterMap fun o => o.copy
  let s1 := s.setGrants 0 ((s.grants 0).filter fun g => (grantCopy g).isNone)
  (s1.upDlv fun d => { d with own := d.own.filter fun o => o.copy.isNone }).upLog fun g =>
    { g with copyQ := l ++ g.copyQ, prod := g.prod - BitVec.ofNat 31 l.length }

/-! ### Notification (R132, R133) -/

/-- The notification's data: NDATA with the level in [3:0] when DATA_LVL is 1. -/
def noteData (n : Note) : DW := if ringDataLvl n.ent then setFld (ringNdata n.ent) 0 n.lvl else ringNdata n.ent

/-- NOTIFY rises by 1 (Tables 15-1 and 15-5). -/
def tallyNotify (t : BitVec 8) (s : State) : State :=
  let y := s.tallyAt t.toNat
  bump (tenPage t.toNat + 0x858)
    (s.setTally t.toNat { y with notify := (satAdd y.notify 1).1, sat := y.sat || (satAdd y.notify 1).2 })

/-- The channel of a ring: ring number modulo 4 (R28). -/
def chanOf (r : Nat) : Nat := r % 4

/-- A notification passes the delivery gate and launches under `tag`, or marks its half FAULTED (R133, Table 5-4). A half that has become
FAULTED, or is quarantined, launches none (R146, R289). -/
def launchNote (n : Note) (tag : BitVec 12) (s : State) : State :=
  if (s.half n.ring.toNat).faulted then s else
  let c := chanOf n.ring.toNat
  let t := ringTen n.ent
  let a := ringNaddr n.ent
  match gateDecide s 2 a.toNat 4 (coloursOf s t) with
  | .lets k =>
    perf dDlv 0x33 (bump (dlvPage + 0x0C8) (tallyNotify t
      (putWrite c 1 (.ring n.ring) a 4 true false 0 (regColour (s.region k)) (dataOf [noteData n]) tag s)))
  | .fault kind reg => faultHalf n.ring.toNat (report (dlvViol s kind reg c 6 a t (noteData n)) t s)

/-- A notification launches at once, or waits for a free tag. A FATAL block launches none (R293). -/
def sendNote (n : Note) (s : State) : State :=
  let c := chanOf n.ring.toNat
  if s.log.fatal then s
  else
    match s.noteQ c, freeTag s c with
    | [], some tag => launchNote n tag s
    | q, _ => s.setNoteQ c (q ++ [n])

/-- notify(h, L) of R132; `ent` is the version of the write, or the one in force at a rearm (R188). -/
def notify (r : Nat) (l : BitVec 4) (ent : RingEnt) (s : State) : State :=
  sendNote { ring := BitVec.ofNat 15 r, lvl := l, ent }
    (s.setHalf r { s.half r with nlvl := some l, seq := (s.half r).seq + 1 })

/-- Notifications that waited launch in order while their channel has a free tag, at most `n` of them (R30). -/
def drainNotes (c : Nat) : Nat → State → State
  | 0, s => s
  | n + 1, s =>
    match s.noteQ c, freeTag s c with
    | x :: rest, some tag => if s.log.fatal then s else drainNotes c n (launchNote x tag (s.setNoteQ c rest))
    | _, _ => s

/-- Notifications go ahead of any grant (R132): what waits takes the tags that have come free. -/
def drainNote (c : Nat) (s : State) : State := drainNotes c (s.noteQ c).length s

/-- The decision at a launch into half `r` whose records have highest level `l` and last level `last` (R132). -/
def notifyAtLaunch (r : Nat) (l last : BitVec 4) (ent : RingEnt) (s : State) : State :=
  let h := { s.half r with lastLvl := last }
  let s1 := s.setHalf r h
  if h.arm then notify r l ent (s1.setHalf r { h with arm := false })
  else
    match h.nlvl with
    | some n => if (16 ≤ h.runlvl.toNat ∨ h.runlvl.toNat < l.toNat) ∧ n.toNat < l.toNat then notify r l ent s1 else s1
    | none => s1

/-! ### Waiting of FENCEs (R189) -/

/-- First healthy member of a set, member 0 first. -/
def healthyMember (s : State) (m : McSet) : Option (BitVec 15) := m.members.find? fun r => healthy s r.toNat

/-- A FENCE ends: it no longer counts among the outstanding ones. -/
def fenceDone (id : Nat) (s : State) : State :=
  s.upIntake fun i => { i with fences := i.fences.filter fun f => f.id ≠ id }

/-- The entry a FENCE is processed under, that of its own epoch (R189). -/
def fenceEntry (s : State) (f : Fence) : SrcEntry :=
  match f.carry with
  | some c => c
  | none => srcEntryAt s f.src.toNat f.epoch

/-- Puts a FENCE's request on the way to its level queue. -/
def fencePush (f : Fence) (d : Dest) (s : State) : State :=
  let e := fenceEntry s f
  let q : Req := { kind := .fence f.id, lvl := srcLvl e, dest := d, epoch := f.epoch, age := s.stepNo, sel := 64 * s.stepNo, res := false }
  setFence f.id (fun g => { g with requested := true }) (s.setSelQ (srcLvl e).toNat (s.selQ (srcLvl e).toNat ++ [q]))

/-- The member ring of set `k` that a FENCE goes to: the one it has chosen while that half is healthy, else the first healthy member
(R189). -/
def fenceMember (s : State) (f : Fence) (k : Nat) : Option (BitVec 15) :=
  match f.chosen with
  | some r => if healthy s r.toNat then some r else healthyMember s (mcastAt s k f.epoch)
  | none => healthyMember s (mcastAt s k f.epoch)

/-- A FENCE whose markers have all been passed becomes a request: for its ring while that has space, for the first healthy member of
a multicast set, or for relay. With no healthy member it is discarded and counted in DLV_MCAST_SKIP (R189). -/
def fenceRequest (f : Fence) (s : State) : State :=
  if f.ahead ≠ [] ∨ !f.applied ∨ f.requested then s
  else
    match destOf s (fenceEntry s f) f.epoch with
    | .half r => if halfOpen s r.toNat then fencePush f (.half r) s else s
    | .remote b r => fencePush f (.remote b r) s
    | .mcast k =>
      match fenceMember s f k with
      | none => countSkips 1 (fenceDone f.id s)
      | some r =>
        let s1 := setFence f.id (fun g => { g with chosen := some r }) s
        if (s.half r.toNat).full then s1 else fencePush f (.half r) s1

/-- Every waiting FENCE tries to become a request. -/
def fenceRequests (s : State) : State := s.intake.fences.foldl (fun s f => fenceRequest f s) s

end Sys2Proof.Machine
end

