-- ==== Sys2Proof/Machine/Errors.lean ====
section
/-! DEFINITION. What an error does (file 16): quarantine, escalation, FATAL, the log memory's own failure, and the first outcome
of each kind. -/

namespace Sys2Proof.Machine

/-! ### The entry as words (Table 16-3) -/

/-- The sixteen DWs of an entry or its copy. -/
def logWords (x : LogEnt) (e : Nat) (bypass phase : Bool) : List DW :=
  [ at32 x.kind 0 ||| at32 x.cls 8 ||| at32 (b1 x.multi) 10 ||| at32 (b1 x.escalated) 11 ||| at32 x.unit.typ 12 |||
      at32 (BitVec.ofNat 6 e) 16 ||| at32 (b1 x.acked) 22 ||| at32 (b1 bypass) 23 ||| at32 (b1 phase) 31,
    at32 x.unit.val 0 ||| at32 x.form 28, at32 x.count 0, x.lseq,
    lo32 x.first, hi32 x.first, lo32 x.last, hi32 x.last ] ++ dwsOf x.detail 8

/-- The copy of LOGFAIL register `n`: FORM 0xE, the register in DW8–DW9 (R291). -/
def logfailEnt (s : State) (n : Nat) : LogEnt :=
  { kind := 0, cls := 0, multi := false, escalated := false, unit := uBlock, acked := false, count := 0, lseq := s.log.lseq,
    first := s.glb.now, last := s.glb.now, detail := (s.logfail n).setWidth 256, form := 0xE, copyNo := 0, copyOk := false }

/-- Address of the error ring's next entry (R290). -/
def errRingAddr (s : State) : BitVec 64 :=
  (s.log.base ++ 0#12) + BitVec.ofNat 64 (64 * (s.log.prod.toNat % errRingRecs s))

/-- PHASE of the error ring's next entry. -/
def errRingPhase (s : State) : Bool := phaseOf s.log.prod.toNat (errRingRecs s)

/-- The error ring becomes FAULTED (Tables 2-5 and 5-4); its outstanding writes log nothing further. -/
def faultErrRing (s : State) : State := (takeBackCopies s).upLog fun l => { l with faulted := true }

/-- Writes a copy straight to the error ring, as the first copy of entry 63 at the moment of FATAL is (R293). A bypass entry that the ring
cannot take is lost (R291). -/
def copyNow (x : LogEnt) (e : Nat) (bypass : Bool) (tgt : WTarget) (s : State) : State :=
  if !errRingOn s || s.log.faulted || errRingFull s then lostCopy tgt s
  else
    match freeTag s 0 with
    | none => lostCopy tgt s
    | some tag =>
      let a := errRingAddr s
      let ws := logWords x e bypass (errRingPhase s)
      match gateDecide s 2 a.toNat 64 (coloursOf s 0) with
      | .lets k =>
        let r := s.region k
        (putWrite 0 3 tgt a 64 (regOrd r) (regNs r) (regAlloc r) (regColour r) (dataOf ws) tag s).upLog fun l =>
          { l with prod := l.prod + 1 }
      | .fault kind reg => lostCopy tgt (faultErrRing (report (dlvViol s kind reg 0 8 a 0 (ws.getD 0 0)) 0 s))

/-! ### Quarantine (R289, Table 16-4) -/

/-- Ends a multicast event's residue, counted as skipped (R144). -/
def dropResidue (k : Nat) (s : State) : State :=
  match s.mc k with
  | some run => if run.launched.isSome then mcFinish k (countSkips run.residue.length (s.setMc k (some { run with residue := [] }))) else s
  | none => s

/-- An uncorrectable error of a source: QUARANTINED, or a withdraw for that purpose when it is ISSUED (Table 6-2, R335). -/
def quarantineSource (k : Nat) (s : State) : State :=
  if (s.dyn k).st = .issued then dropResidue k (sendWithdraw k .quarantine s)
  else if (s.dyn k).st = .quarantined then s
  else toQuarantine k s

/-- The half is out of service: FAULTED, EN reads 0. -/
def quarantineHalf (r : Nat) (s : State) : State :=
  let s1 := faultHalf r s
  s1.setHalf r { s1.half r with quarantined := true }

/-- Every event in pool slot `i` becomes slotless (R82). -/
def slotless (i : Nat) (s : State) : State :=
  (listedSources s).foldl
    (fun s k =>
      let d := s.dyn k
      let up := fun (e : Ev) => if e.slot = some i then { e with slot := none } else e
      s.setDyn k { d with ev := d.ev.map up, rep := d.rep.map up }) s

/-- A slot with an uncorrectable error is rewritten and freed (Table 16-2); one that is retired stays so (Table 16-4). -/
def freeBadSlot (i : Nat) (s : State) : State := if s.slot i = some .retired then s else s.setSlot i none

/-- Key of a region from its UNIT encoding (Table 16-1). -/
def unitRegion (v : BitVec 28) : Nat := 4096 * (fld v 13 2).toNat + (fld v 0 13).toNat

/-- The tally's counts at their holding values, so that the next Ticket carries SATURATED (Table 16-2, TALLY_UE). -/
def holdTally (t : Nat) (s : State) : State :=
  s.setTally t
    { s.tallyAt t with accepted := BitVec.allOnes 48, folded := BitVec.allOnes 48, delivered := BitVec.allOnes 48,
                       notify := BitVec.allOnes 48, viol := BitVec.allOnes 48, wsum := BitVec.allOnes 56, sat := true }

/-- A table entry out of service: multicast set, remote entry or group. -/
def quarantineEntry (v : BitVec 28) (s : State) : State :=
  let i := (fld v 0 13).toNat
  match (fld v 14 2).toNat with
  | 0 => s.upDlv fun d => { d with qMcast := addRange i d.qMcast }
  | 1 => s.upDlv fun d => { d with qRemote := addRange i d.qRemote }
  | 2 => soakFinish i (s.upDlv fun d => { d with qGroup := addRange i d.qGroup })
  | _ => s

/-- The unit goes out of service as Table 16-4 states; units without a row there are marked by their kind's outcome alone. -/
def quarantineUnit (u : ErrUnit) (s : State) : State :=
  match u.typ.toNat with
  | 0x1 => quarantineSource (u.val.toNat % 262144) s
  | 0x2 => quarantineHalf (u.val.toNat % 32768) s
  | 0x3 => s.upGates fun g => { g with qRegion := addRange (unitRegion u.val) g.qRegion }
  | 0x4 => (slotless (u.val.toNat % 65536) s).setSlot (u.val.toNat % 65536) (some .retired)
  | 0x5 => quarantineEntry u.val s
  | 0x6 => s.upFw fun f => { f with qKey := addRange (u.val.toNat % 256) f.qKey }
  | 0x8 => holdTally (u.val.toNat % 256) s
  | _ => s

/-! ### FATAL (R285, R293) -/

/-- The block becomes FATAL: FAULT rises, and entry 63's first copy is attempted once; in bypass the error itself is written, and has its
LSEQ. -/
def fatalStop (x : LogEnt) (bypass : Bool) (s : State) : State :=
  if s.log.fatal then s
  else
    let no := s.log.copyCtr + 1
    let s1 := s.upLog fun l => { l with fatal := true, fault := true, copyCtr := no }
    if bypass then copyNow x 0 true .logOther (s1.upLog fun l => { l with lseq := l.lseq + 1 })
    else copyNow x 63 false (.logEntry 63 no) (s1.setLogEnt 63 (some { x with copyNo := no, copyOk := false }))

/-- An error of class FATAL enters entry 63 or merges into it (R285). -/
def enterFatal (x : ErrIn) (s : State) : State :=
  match s.logEnt 63 with
  | none =>
    let y := entryOf s x
    fatalStop y false (putEntry 63 y s)
  | some y => fatalStop y false (mergeInto 63 s)

/-! ### Logging any error (R285, R291) -/

/-- A FATAL error in bypass: written at once, or, in a block that is FATAL already, left to wait with the other copies (R291, R293). -/
def fatalBypass (x : ErrIn) (s : State) : State := if s.log.fatal then bypassWrite x s else fatalStop (entryOf s x) true s

/-- An error in bypass (R291). -/
def logBypass (x : ErrIn) (s : State) : State :=
  if x.cls = clsFatal then fatalBypass x s
  else if x.cls = clsUCB then
    if s.log.ucbOpen then fatalBypass { x with cls := clsFatal, escalated := true } s
    else bypassWrite x (s.upLog fun l => { l with ucbOpen := true })
  else if x.cls = clsUCU then bypassWrite x (quarantineUnit x.unit s)
  else bypassWrite x s

/-- Places an error after its first outcome (R285). -/
def logErr (x : ErrIn) (s : State) : State :=
  if s.log.bypass then logBypass x s
  else if x.cls = clsFatal then enterFatal x s
  else if x.cls = clsUCB && ucbOpenEntry s then enterFatal { x with cls := clsFatal, escalated := true } s
  else
    match findOpen s x.cls x.unit with
    | some e =>
      let s1 := mergeInto e s
      if x.cls = clsUCU then
        match s1.logEnt e with
        | some y => askCopy e (quarantineUnit x.unit (s1.setLogEnt e (some { y with escalated := true })))
        | none => s1
      else s1
    | none => enterNew x (decide (x.cls ≠ clsCE)) s

/-- Logs an error of a kind of Table 16-2. -/
def logKind (k : ErrKind) (u : ErrUnit) (detail : BitVec 256) (s : State) : State := logErr (mkErr k u detail) s

/-- One PORT_PARITY for a handshake in which the port finds parity errors (R20). -/
def portParity (port : Nat) (s : State) : State := logKind .portParity (uPort port) 0 s

/-- Port numbers of Table 16-1. -/
def pDip (n : Nat) : Nat := n
def pWch (c : Nat) : Nat := 0x10 + c
def pRch : Nat := 0x14
def pRtp : Nat := 0x15
def pTime : Nat := 0x16

/-! ### The log memory's own failure (R291) -/

/-- First LOGFAIL register that is not valid. -/
def freeLogfail (s : State) : Option Nat := (List.range 4).find? fun n => !bitAt (s.logfail n) 0

/-- The LOGFAIL register of a failure of entry `e` (Table 16-7). -/
def logfailWord (e : BitVec 6) (syn : Byte) (now : BitVec 64) : Reg64 :=
  at64 (b1 true) 0 ||| at64 e 1 ||| at64 syn 8 ||| at64 (fld now 0 48) 16

/-- An uncorrectable error in the log SRAM: the first free LOGFAIL register, its copy, and bypass with the SRAM abandoned. -/
def logSramFail (e : BitVec 6) (syn : Byte) (s : State) : State :=
  match freeLogfail s with
  | none => s.upLog fun l => { l with lostTotal := l.lostTotal + 1, bypass := true, ents := [] }
  | some n =>
    (s.setLogfail n (logfailWord e syn s.glb.now)).upLog fun l =>
      { l with bypass := true, ents := [],
               copyQ := l.copyQ.filter (fun c => match c with | .entry _ _ => false | _ => true) ++
                 (if errRingOn s then [.logfail n] else []) }

/-! ### First outcomes (Table 16-2) -/

/-- Requests that have not been granted are discarded, and their sources are ranked again (QUEUE_UE). An expanded multicast event of which
no member is granted or launched is returned whole; the missing members of any other are residue, which presents again. -/
def queueUe (s : State) : State :=
  let qs := entering s ++ ungranted s ++ s.relay.stage
  let s1 := (List.range 16).foldl (fun s l => s.setSelQ l []) (removeReqs (fun _ => true) s)
  let s2 := qs.foldl
    (fun s q =>
      match q.res, reqHalf q with
      | true, some r => backOut q (release r s)
      | _, _ => backOut q s) (s1.upRelay fun y => { y with stage := [] })
  presentAll ((mcSources s2).foldl (fun s k => if mcStarted s k then s else settleWin k (s.setMc k none)) s2)

/-- Twifomon is halted (R295). -/
def haltFw (s : State) : State := s.upFw fun f => { f with phase := .halted, coreRestart := false }

/-- The journal entry of a mailbox is discarded (R169). -/
def dropJournal (key : Nat) (s : State) : State := s.setMailbox key { s.mailbox key with journal := none }

/-- A ledger becomes FAULTED (R276). -/
def faultLedger (t : Nat) (s : State) : State := s.setLedger t { s.ledgerAt t with faulted := true }

/-- The target of a WRITE_ERR becomes FAULTED (Table 2-5). -/
def writeErrUnit (u : ErrUnit) (s : State) : State :=
  if u.typ = 2 then faultHalf (u.val.toNat % 32768) s
  else if u.typ = 9 then if bitAt u.val 8 then faultErrRing s else faultLedger (u.val.toNat % 256) s
  else s

/-- What the block does at the moment of detection, before the log (R283, Table 16-2). The kinds of class CE, PORT_PARITY and
PWR_TIMEOUT have their outcome where they arise, in other commands. -/
def firstOutcome (k : ErrKind) (u : ErrUnit) (s : State) : State :=
  match k with
  | .srcUe => quarantineSource (u.val.toNat % 262144) s
  | .ringUe => faultHalf (u.val.toNat % 32768) s
  | .writeErr => writeErrUnit u s
  | .regionUe | .entryUe | .keyUe | .zeroFail => quarantineUnit u s
  | .slotUe => freeBadSlot (u.val.toNat % 65536) (slotless (u.val.toNat % 65536) s)
  | .tallyUe => holdTally (u.val.toNat % 256) s
  | .journalUe => dropJournal (u.val.toNat % 512) s
  | .queueUe => queueUe s
  | .fwHalt => haltFw s
  | _ => s

/-- An error is detected (R283, R285, R291). -/
def detect (k : ErrKind) (u : ErrUnit) (detail : BitVec 256) (s : State) : State :=
  if k = .logUe then logSramFail (fld detail 32 6) (fld detail 64 8) s else logKind k u detail (firstOutcome k u s)

end Sys2Proof.Machine
end

