-- ==== Sys2Proof/Machine/Apply.lean ====
section
/-! DEFINITION. Intake and apply as shared operations (files 02, 04, 06): the DIP gate, the Folder, FENCE markers, the tag fold and
the bank apply under Table 6-2. -/

namespace Sys2Proof.Machine

/-! ### Doorbell KIND codes (Table 4-2) -/

def kAssert : BitVec 4 := 0
def kLevelHi : BitVec 4 := 1
def kLevelLo : BitVec 4 := 2
def kCancel : BitVec 4 := 3
def kFence : BitVec 4 := 4

/-- The KIND that repeats an event of MODE `m` (R77). -/
def repeatKind (m : BitVec 2) : BitVec 4 := if m = 1 then kLevelHi else kAssert

/-- Table 4-3: the MODE accepts the KIND. -/
def modeAccepts (m : BitVec 2) (k : BitVec 4) : Bool :=
  if k = kAssert then decide (m ≠ 1)
  else if k = kLevelHi ∨ k = kLevelLo then decide (m = 1)
  else true

/-! ### Applying an event (Table 6-2) -/

/-- The event that repeats fold into: the REPEND event, if any, else the first (R104). -/
def curEv (d : SrcDyn) : Option Ev :=
  match d.rep with
  | some r => some r
  | none => d.ev

/-- The record with that event replaced. -/
def setCur (d : SrcDyn) (e : Ev) : SrcDyn :=
  match d.rep with
  | some _ => { d with rep := some e }
  | none => { d with ev := some e }

/-- Cookie of `m` for COOKIE_POL of entry `ent`: none keeps the slot's own (R77). -/
def foldCookie (ent : SrcEntry) (m : Msg) : Option (BitVec 28) := if srcFirstPol ent then none else some m.last

/-- `m` folds into the event `e` of its source (R77, R78). -/
def foldInto (e : Ev) (m : Msg) (s : State) : State :=
  let ent := evEntry s m.src.toNat e
  tallyFolded (srcTen ent) m.n (foldSlot e m.n (foldCookie ent m) s)

/-- A new event of `m` under entry `ent`: its slot holds the cookie kept, n − 1 folds and the first time (R77). -/
def makeEv (m : Msg) (ent : SrcEntry) (s : State) : State × Ev :=
  let c := if srcFirstPol ent then m.first else m.last
  let r := takeSlot m.src.toNat (.used c (holdInc 0 (m.n - 1)) m.time false) s
  (tallyFolded (srcTen ent) (m.n - 1) r.1, newEv s m.epoch r.2 false)

/-- A move to HELD counts in the slice's event 0x25 (Table 15-8). -/
def perfHeld (k : Nat) (st : SState) (s : State) : State :=
  if st = .held then perf (dSlc (sliceOf (BitVec.ofNat 18 k))) 0x25 s else s

/-- R151 at step 5 for source `k`: levels 12–15 leave HELD when ACTIVE becomes LATENCY, and go to HELD when it leaves LATENCY while their
group soaks. -/
def exemptOne (old new : BitVec 2) (k : Nat) (s : State) : State :=
  let d := s.dyn k
  match d.ev with
  | none => s
  | some e =>
    let ent := evEntry s k e
    if (srcLvl ent).toNat < 12 then s
    else if new = pLatency ∧ d.st = .held then s.setDyn k { d with st := .pending }
    else if old = pLatency ∧ new ≠ pLatency ∧ d.st = .pending ∧ soaking s (srcGroup ent).toNat = true then
      perfHeld k .held (s.setDyn k { d with st := .held })
    else s

/-- ASSERT or LEVEL_HI at apply (Table 6-2). -/
def applyEvent (m : Msg) (ent : SrcEntry) (s : State) : State :=
  let k := m.src.toNat
  let d := s.dyn k
  let hi := decide (m.kind = kLevelHi)
  match d.st with
  | .idle =>
    let r := makeEv m ent s
    let st := pendState s ent
    perfHeld k st (putDyn k { d with st, ev := some r.2, evMode := srcMode ent, line := d.line || hi } r.1)
  | .pending | .held | .activePending =>
    match d.ev with
    | some e => foldInto e m (s.setDyn k { d with line := d.line || hi })
    | none => s
  | .issued =>
    match curEv d with
    | some e =>
      if !e.frozen then foldInto e m (s.setDyn k { d with line := d.line || hi })
      else if hi && d.line then tallyFolded (srcTen ent) m.n s
      else
        let r := makeEv m ent s
        putDyn k { d with rep := some r.2, evMode := srcMode ent, line := d.line || hi } r.1
    | none => s
  | .active =>
    if hi && d.line then tallyFolded (srcTen ent) m.n s
    else
      let r := makeEv m ent s
      putDyn k { d with st := .activePending, ev := some r.2, evMode := srcMode ent, line := d.line || hi } r.1
  | .quarantined => s

/-- CANCEL or LEVEL_LO at apply (Table 6-2). -/
def applyRetract (k : Nat) (levelLo : Bool) (s : State) : State :=
  let d := s.dyn k
  let line := d.line && !levelLo
  match d.st with
  | .idle | .active => if levelLo then s.setDyn k { d with line } else cancelLate k s
  | .pending | .held => putDyn k { d with st := .idle, ev := none, line } (freeEv d.ev s)
  | .activePending => putDyn k { d with st := .active, ev := none, line } (freeEv d.ev s)
  | .issued => cancelIssued k levelLo s
  | .quarantined => s

/-- A FENCE has been applied: it waits only for what its markers stand behind (R189). -/
def fenceApplied (m : Msg) (s : State) : State :=
  let p := fun (f : Fence) => f.src = m.src && f.token = m.first && f.time = m.time && f.epoch = m.epoch && !f.applied
  match s.intake.fences.find? p with
  | some f => s.upIntake fun i => { i with fences := i.fences.map fun g => if g.id = f.id then { g with applied := true } else g }
  | none => s

/-- A FENCE that is discarded or refused no longer counts (R189). -/
def fenceDropped (m : Msg) (s : State) : State :=
  if m.kind = kFence then
    match s.intake.fences.find? fun f => f.src = m.src && f.token = m.first && f.time = m.time && f.epoch = m.epoch && !f.applied with
    | some f => fenceDone f.id s
    | none => s
  else s

/-! ### Refusals at apply (R67, R72, R94) -/

/-- The report of a refusal at apply. -/
def applyViol (m : Msg) (kind : Byte) : Viol :=
  { kind, gate := 3, unit := BitVec.ofNat 4 (sliceOf m.src), access := 4, addr := m.src.setWidth 64 * 8, reqid := m.reqid,
    port := m.port, colour := m.colour, region := none, data := at32 m.first 0 ||| at32 m.kind 28 }

/-- A message is refused with one report. -/
def refuse (m : Msg) (kind : Byte) (s : State) : State :=
  fenceDropped m (report (applyViol m kind) (tenantOfColour s m.colour) s)

/-- The bound port refuses the message (R72). -/
def portRefuses (m : Msg) (port : BitVec 8) : Bool := !m.noPort && decide (port ≠ 0xFF) && decide (m.port ≠ port)

/-- The first accepted doorbell of a claiming source binds its port: main entry and tag, and the shadow entry when it is the one
used (R72). -/
def bindPort (m : Msg) (ent : SrcEntry) (s : State) : State :=
  let k := m.src.toNat
  if !m.noPort && srcClaim ent && decide (srcPort ent = 0xFF) then
    let s1 := s.setMain k (srcSetPort (s.main k) m.port)
    let s2 := s1.setDyn k { s1.dyn k with tagPort := m.port }
    let s3 :=
      match s.shadow k with
      | some sh =>
        if atOrAfter m.epoch sh.epoch then s2.setShadow k (some { sh with entry := srcSetPort sh.entry m.port }) else s2
      | none => s2
    bump (slcPage (sliceOf m.src) + 0x030) s3
  else s

/-! ### A message at its slice (R77) -/

/-- The five conditions under which the intake tag folds a message. -/
def tagFolds (s : State) (m : Msg) : Bool :=
  let d := s.dyn m.src.toNat
  decide (m.kind = repeatKind d.evMode) && pendBit d.st && !portRefuses m d.tagPort && (s.shadow m.src.toNat).isNone &&
    match curEv d with
    | some e => !e.frozen
    | none => false

/-- A bank apply of a message that passes R65, R72 and R67. -/
def applyKind (m : Msg) (ent : SrcEntry) (s : State) : State :=
  let s1 := tallyAccepted (srcTen ent) m.n s
  if m.kind = kAssert ∨ m.kind = kLevelHi then applyEvent m ent s1
  else if m.kind = kLevelLo then applyRetract m.src.toNat true s1
  else if m.kind = kCancel then applyRetract m.src.toNat false s1
  else fenceApplied m s1

/-- The bank apply (R65, R67, R72, R77). -/
def bankApply (m : Msg) (s : State) : State :=
  let k := m.src.toNat
  let sl := sliceOf m.src
  let s1 := perf (dSlc sl) 0x20 (perfUnit (dSlc sl) 1 (bump (slcPage sl + 0x018) s))
  let ent := srcEntryAt s k m.epoch
  if (s.dyn k).st = .quarantined then fenceDropped m (bumpBy (slcPage sl + 0x028) m.n s1)
  else if !srcLive s ent m.epoch then fenceDropped m (bumpBy (slcPage sl + 0x020) m.n s1)
  else if portRefuses m (srcPort ent) then refuse m (if srcClaim ent then vClaim else vPort) s1
  else if !modeAccepts (srcMode ent) m.kind then refuse m vMode s1
  else applyKind m ent (bindPort m ent s1)

/-- A message reaches its slice: the tag folds it, or it goes to a bank apply (R77). -/
def applyMsg (m : Msg) (s : State) : State :=
  if tagFolds s m then
    let sl := sliceOf m.src
    let s1 := perf (dSlc sl) 0x21 (bump (slcPage sl + 0x010) s)
    match curEv (s.dyn m.src.toNat) with
    | some e => foldInto e m (tallyAccepted (srcTen (evEntry s m.src.toNat e)) m.n s1)
    | none => s1
  else bankApply m s

/-! ### Queues, markers (R80, R185, R189) -/

/-- Queue of a DIP or of the wired path toward a slice. -/
def originKey : Origin → Nat
  | .dip d => d.val
  | .wired => 16

/-- A message joins its queue; a gated slice is woken (R25, R71). -/
def enqueue (o : Nat) (m : Msg) (s : State) : State :=
  let sl := sliceOf m.src
  wake (dSlc sl) (s.setQueue (8 * o + sl) (s.queue (8 * o + sl) ++ [m]))

/-- One message has left queue `q`: every marker behind it moves up. -/
def passMarkers (q : Nat) (s : State) : State :=
  let down := fun (t : Tbl Nat) => Tbl.set natD t q (Tbl.get natD t q - 1)
  let s1 := s.upIntake fun i => { i with fences := i.fences.map fun f => { f with ahead := down f.ahead } }
  s1.upMbx fun t => t.map fun p =>
    match p.2.busy with
    | .fence a => (p.1, { p.2 with busy := .fence (down a) })
    | _ => p

/-- The accumulator of a Folder entry as one combined message (R76). -/
def accMsg (e : FoldEnt) : Msg :=
  { e.m with n := e.count, first := e.first, last := e.last, time := e.time, reqid := e.reqid, colour := e.colour }

/-! ### Forwarding by a FATAL block (R203) -/

/-- The 16-byte DIP message of a Folder message; a combined one travels with its last cookie (log entry 13). -/
def forwardBits (m : Msg) : BitVec 128 :=
  withInband
    (((m.src.setWidth 128) <<< 3) ||| ((0xF#128) <<< 24) ||| ((m.last.setWidth 128) <<< 32) ||| ((m.kind.setWidth 128) <<< 60) |||
      ((m.reqid.setWidth 128) <<< 64) ||| ((m.port.setWidth 128) <<< 80) ||| ((m.colour.setWidth 128) <<< 88) |||
      (((b1 m.relayed).setWidth 128) <<< 96) ||| ((m.srcBlock.setWidth 128) <<< 97))

/-- Seam-T can carry a FORWARD now. -/
def canForward (s : State) : Bool := decide ((s.linkAt 0).st = .up)

/-- Queues a FORWARD for the partner; SMT_FWD_CNT counts it. -/
def forwardMsg (m : Msg) (s : State) : State :=
  bump (smtPage + 0x020) (s.setLink 0 { s.linkAt 0 with txReq := (s.linkAt 0).txReq ++ [.forward (forwardBits m)] })

/-- A Folder message goes to its slice's queue, or from a FATAL block to the partner, behind what still waits in that queue (R203). -/
def sendMsg (dip : Nat) (m : Msg) (s : State) : State :=
  if s.log.fatal && canForward s && (s.queue (8 * dip + sliceOf m.src)).isEmpty then forwardMsg m s else enqueue dip m s

/-- The queue of DIP `dip` towards the slice of `src` holds its 32 messages (R80). -/
def queueFull (s : State) (dip : Nat) (src : BitVec 18) : Bool := decide (32 ≤ (s.queue (8 * dip + sliceOf src)).length)

/-! ### The Folder (R75, R76) -/

/-- An in-flight entry takes `m` as a repeat. -/
def foldMatches (e : FoldEnt) (m : Msg) : Bool :=
  e.m.src = m.src && e.m.kind = m.kind && e.m.port = m.port && e.m.epoch = m.epoch && e.m.relayed = m.relayed &&
    e.m.srcBlock = m.srcBlock && (m.kind = kAssert || m.kind = kLevelHi)

/-- The entry with `m` merged into its accumulator. -/
def foldAdd (e : FoldEnt) (m : Msg) : FoldEnt :=
  if e.count = 0 then { e with count := 1, first := m.first, last := m.last, time := m.time, reqid := m.reqid, colour := m.colour }
  else { e with count := e.count + 1, last := m.last }

/-- A fresh entry for `m`. -/
def foldNew (m : Msg) : FoldEnt :=
  { m, count := 0, first := 0, last := 0, time := 0, reqid := 0, colour := 0 }

/-- Sends an entry's accumulator where it is not empty. -/
def sendAcc (dip : Nat) (e : FoldEnt) (s : State) : State := if 0 < e.count then sendMsg dip (accMsg e) s else s

/-- Eviction of the least recently used entry, the first of the list, with its accumulator sent and counted (R76). -/
def evict (dip : Nat) (l : List FoldEnt) (s : State) : List FoldEnt × State :=
  match l with
  | e :: r =>
    if l.length < 64 then (l, s)
    else if 0 < e.count then (r, sendAcc dip e (perf (dDip dip) 0x12 (bump (dipPage dip + 0x010) s)))
    else (r, perf (dDip dip) 0x12 s)
  | [] => ([], s)

/-- The Folder's decision on an admitted message (R75). The list runs from least to most recently used. -/
def folderTake (dip : Nat) (m : Msg) (s : State) : State :=
  let l := s.folder dip
  match l.find? fun e => e.m.src = m.src with
  | some e =>
    let rest := l.filter fun x => x.m.src ≠ m.src
    if foldMatches e m then
      perf (dDip dip) 0x11 (bump (dipPage dip + 0x008) (s.setFolder dip (rest ++ [foldAdd e m])))
    else sendMsg dip m ((sendAcc dip e s).setFolder dip (rest ++ [foldNew m]))
  | none =>
    let r := evict dip l s
    sendMsg dip m (r.2.setFolder dip (r.1 ++ [foldNew m]))

/-- Every non-empty accumulator of a DIP is sent ahead of a marker (R189). -/
def flushFolder (dip : Nat) (s : State) : State :=
  let s1 := (s.folder dip).foldl (fun s e => sendAcc dip e s) s
  s1.setFolder dip ((s.folder dip).map fun e => { e with count := 0 })

/-- Queue lengths as markers find them, for origins below `n`. -/
def markers (n : Nat) (s : State) : Tbl Nat :=
  (List.range (8 * n)).foldl (fun t q => Tbl.set natD t q (s.queue q).length) []

/-- Accumulators of every DIP are sent. -/
def flushAll (s : State) : State := (List.range 16).foldl (fun s d => flushFolder d s) s

/-- A FENCE places its markers (R189). -/
def fenceIntake (m : Msg) (s : State) : State :=
  let s1 := flushAll s
  let id := s1.intake.fences.foldl (fun n f => max n f.id) 0 + 1
  s1.upIntake fun i =>
    { i with fences := i.fences ++ [{ id, src := m.src, token := m.first, time := m.time, epoch := m.epoch,
                                      ahead := markers 16 s1, applied := false, requested := false,
                                      carry := none, chosen := none }] }

/-! ### One DIP handshake (R21–R24, R88) -/

/-- The message as intake stamps it: with the time, and the active epoch (R7, R11). SRC_BLOCK is ignored when RELAYED is 0. -/
def stampMsg (s : State) (m : BitVec 128) : Msg :=
  { src := (fld (dmOffset m) 3 18), kind := dmKind m, n := 1, first := dmCookie m, last := dmCookie m, time := s.glb.now,
    port := dmPort m, reqid := dmReqid m, colour := dmColour m, relayed := dmRelayed m,
    srcBlock := if dmRelayed m then dmSrcBlock m else 0, epoch := s.glb.epoch, noPort := false }

/-- The DIP gate (R23, R88). -/
def dipGate (s : State) (m : BitVec 128) : GateRes :=
  if dmBe m ≠ 0xF ∨ fld (dmOffset m) 0 3 ≠ 0 then .fault vAlign none
  else if 5 ≤ (dmKind m).toNat then .fault vKindRsvd none
  else if 0x200000 ≤ (dmOffset m).toNat then .fault vNoRegion none
  else gateDecide s 0 (dmOffset m).toNat 4 [dmColour m]

/-- The report of a DIP gate fault. -/
def dipViol (dip : Nat) (m : BitVec 128) (kind : Byte) (region : Option Nat) : Viol :=
  { kind, gate := 0, unit := BitVec.ofNat 4 dip, access := 4, addr := (dmOffset m).setWidth 64, reqid := dmReqid m,
    port := dmPort m, colour := dmColour m, region, data := dmData m }

/-- An admitted message: a FENCE places its markers, and the Folder takes the message. -/
def admitMsg (dip : Nat) (m : Msg) (s : State) : State :=
  let s1 := perf (dDip dip) 0x10 s
  if m.kind = kFence && !s.log.fatal then folderTake dip m (fenceIntake m s1) else folderTake dip m s1

/-- One present message (R24, R88). -/
def takeMsg (dip : Nat) (m : BitVec 128) (s : State) : State :=
  if !inbandOk m then perf (dDip dip) 0x15 (bump (dipPage dip + 0x000) s)
  else
    match dipGate s m with
    | .fault kind reg => perf (dDip dip) 0x14 (report (dipViol dip m kind reg) (tenantOfColour s (dmColour m)) s)
    | .lets _ => admitMsg dip (stampMsg s m) s

/-- Numbers of the present messages, in order (R22). -/
def presentMsgs (mv : BitVec 4) : List Nat := (List.range 4).filter fun m => bitAt mv m

/-- The whole handshake taken: its messages in order, one PORT_PARITY whatever the number in error (R20, R22). -/
def takeHandshake (dip : Nat) (mv : BitVec 4) (d : BitVec 512) (s : State) : State :=
  let s1 := (presentMsgs mv).foldl (fun s m => takeMsg dip (dipMsg d m) s) s
  let s2 := (perfUnit (dDip dip) 1 s1).upIntake fun i => { i with lastHandshake := Tbl.set zeroD i.lastHandshake dip s.glb.now }
  let bad := (presentMsgs mv).any fun m => !inbandOk (dipMsg d m)
  (if bad then portParity (pDip dip) s2 else s2).emit (.dipAck dip)

/-- A slice queue of the DIP has passed its 32 messages (R80). A handshake with more messages for a slice than its queue has room for is
held whole, and counts a stall, though the queue is not yet full: R80 speaks only of a full queue, and the rest is the model's choice (log
entry 119). -/
def overfull (dip : Nat) (old new : State) : Bool :=
  (List.range 8).any fun sl => decide (32 < (new.queue (8 * dip + sl)).length) &&
    decide ((old.queue (8 * dip + sl)).length < (new.queue (8 * dip + sl)).length)

/-- Input handshakes are acknowledged: after capture entry, outside resets (R48, R304, R308). -/
def accepting (s : State) : Bool := decide (s.pwr.phase = .run)

/-- What keeps a handshake waiting at the pins, if anything. -/
inductive DipHold where
  | free
  | power
  | queue
  | other
deriving DecidableEq, Repr

/-- Whether a DIP takes its next handshake: ports accepting (R48), the DIP powered (R25), a FATAL block able to forward (R203), room in
its slice queues (R80) and in the list of 64 FENCEs (R189). -/
def dipHold (dip : Nat) (mv : BitVec 4) (d : BitVec 512) (s : State) : DipHold :=
  if !accepting s then .other
  else if !domOn s (dDip dip) then .power
  else if s.log.fatal && !canForward s then .other
  else if overfull dip s (takeHandshake dip mv d s) then .queue
  else if 64 < (takeHandshake dip mv d s).intake.fences.length then .other
  else .free

/-- Serves the handshakes held at a DIP in order, at most `n` of them. -/
def serveDip (dip : Nat) : Nat → State → State
  | 0, s => s
  | n + 1, s =>
    match s.heldL dip with
    | [] => s
    | h :: rest =>
      match dipHold dip h.mv h.d s with
      | .free => serveDip dip n (takeHandshake dip h.mv h.d (s.setHeldL dip rest))
      | .queue =>
        if h.stalled then s
        else perf (dDip dip) 0x13 (bump (dipPage dip + 0x018) (s.setHeldL dip ({ h with stalled := true } :: rest)))
      | .power => wake (dDip dip) s
      | .other => s

/-- Serves every DIP. -/
def serveDips (s : State) : State := (List.range 16).foldl (fun s d => serveDip d (s.heldL d).length s) s

end Sys2Proof.Machine
end

