-- ==== Sys2Proof/Machine/TlyOps.lean ====
section
/-! DEFINITION. Tallies at launch, Tickets, ledger rings and record tags (files 14 and 15). -/

namespace Sys2Proof.Machine

/-! ### Counts at launch (R268–R270) -/

/-- Weight in force of level `l` (Table 15-2). -/
def weightOf (s : State) (l : BitVec 4) : BitVec 16 := fld (s.weightNow (l.toNat / 4)) (16 * (l.toNat % 4)) 16

/-- A record of level `l` delivered for tenant `t` (Table 15-1). -/
def tallyDelivered (t : BitVec 8) (l : BitVec 4) (s : State) : State :=
  let y := s.tallyAt t.toNat
  let w := (weightOf s l).toNat
  bump (tenPage t.toNat + 0x850)
    (s.setTally t.toNat { y with delivered := (satAdd y.delivered 1).1, wsum := holdInc y.wsum w,
                                 sat := y.sat || (satAdd y.delivered 1).2 || decide (2 ^ 56 ≤ y.wsum.toNat + w) })

/-! ### Record tags (R254, R255) -/

/-- ASCII bytes of a name. -/
def recInfo : List Byte := [0x73, 0x68, 0x75, 0x69, 0x73, 0x74, 0x20, 0x72, 0x65, 0x63, 0x20, 0x76, 0x31]
def tlyInfo : List Byte := [0x73, 0x68, 0x75, 0x69, 0x73, 0x74, 0x20, 0x74, 0x6C, 0x79, 0x20, 0x76, 0x31]

/-- Block number in 2 bytes and the strap in one, as both key infos end (R254, R275). -/
def blockInfo (s : State) : List Byte := bytesOf ((ownBlk s).setWidth 16) 2 ++ [(b1 (strapB s)).setWidth 8]

/-- The export master secret of session `n` (log entry 9). -/
def sessionSecret (n : Nat) : List Byte := bytesOf (Config.exportSecret n) 48

/-- 32 bytes as a key. -/
def keyOf (l : List Byte) : BitVec 256 := BitVec.ofNat 256 (natOfBytes l)

/-- The record key of session `n` (R254). -/
def recordKey (s : State) (n : Nat) : BitVec 256 := keyOf (hkdf32 (sessionSecret n) (recInfo ++ blockInfo s))

/-- The ledger key of a role and tenant from session `n` (R275). -/
def ledgerKey (s : State) (role ten : Byte) (n : Nat) : BitVec 256 :=
  keyOf (hkdf32 (sessionSecret n) (tlyInfo ++ [role, ten] ++ blockInfo s))

/-- The IV of a sealed record (Table 14-4). -/
def recIv (s : State) (r : Nat) (h : Half) : List Byte :=
  bytesOf (BitVec.ofNat 16 r ||| ((b1 (strapB s)).setWidth 16 <<< 15)) 2 ++ bytesOf h.rgen 2 ++ bytesOf h.seqHi 4 ++
    bytesOf h.recSeq 4

/-! ### Tickets (R272–R274) -/

/-- Nanoseconds in a minute. -/
def minuteNs : Nat := 60000000000

/-- The IV of a Ticket's tag: role 0 operator, 1 tenant (R274). -/
def tickIv (s : State) (t : BitVec 8) (role : Byte) (seq : DW) : List Byte :=
  [t, role] ++ bytesOf (((ownBlk s).setWidth 16) ||| ((b1 (strapB s)).setWidth 16 <<< 11)) 2 ++ bytesOf seq 4 ++
    [0, 0, 0, 0]

/-- A 64-bit value as two DWs. -/
def two (w : BitVec 64) : List DW := [lo32 w, hi32 w]

/-- DW0 to DW27 of a Ticket with PHASE and PARTNER zero (Table 15-3). -/
def ticketBody (s : State) (t : BitVec 8) (isFinal : Bool) (minute : DW) (span : Nat) (time : BitVec 64) : List DW :=
  let y := s.tallyAt t.toNat
  let dw0 : DW := at32 t 0 ||| at32 (ownBlk s) 8 ||| at32 (b1 (strapB s)) 19 ||| at32 (b1 y.sat) 20 ||| at32 (b1 isFinal) 21 |||
    at32 (b1 (s.ledKey 256).isSome) 24 ||| at32 (b1 (s.ledKey t.toNat).isSome) 25
  [dw0, y.seq, minute, BitVec.ofNat 32 (min span 0xFFFF)] ++
    two (y.accepted.setWidth 64) ++ two (y.folded.setWidth 64) ++ two (y.delivered.setWidth 64) ++ two (y.notify.setWidth 64) ++
    two (y.viol.setWidth 64) ++ two (y.wsum.setWidth 64) ++ [0, (s.tenantR t.toNat).handle] ++ two time ++
    two (s.weightNow 0) ++ two (s.weightNow 1) ++ two (s.weightNow 2) ++ two (s.weightNow 3)

/-- A tag under a key, or zero where the key is absent (R275). -/
def tickTag (key : Option (BitVec 256)) (iv : List Byte) (body : List DW) : List DW :=
  match key with
  | some k => two (gmac64 k iv (bytesOfDws body))
  | none => [0, 0]

/-- Tags of a Ticket of tenant `t`, event 0x60 of CRY (Table 15-8). -/
def countTags (t : Nat) (s : State) : State := cryTags ((s.ledKey 256).toList.length + (s.ledKey t).toList.length) s

/-- The whole Ticket with PHASE zero. -/
def ticketOf (s : State) (t : BitVec 8) (isFinal : Bool) (minute : DW) (span : Nat) (time : BitVec 64) : Ticket :=
  let b := ticketBody s t isFinal minute span time
  let seq := (s.tallyAt t.toNat).seq
  b ++ tickTag (s.ledKey 256) (tickIv s t 0 seq) b ++ tickTag (s.ledKey t.toNat) (tickIv s t 1 seq) b

/-- Tickets in a ledger ring: 2^(code + 4). -/
def ledgerSize (l : Ledger) : Nat := 2 ^ (l.code.toNat + 4)

/-- FULL: no room for a Ticket (Table 15-4). -/
def ledgerFull (l : Ledger) : Bool := decide (ledgerSize l ≤ (l.prod - l.cons).toNat)

/-- An enabled ledger takes no Ticket now. -/
def ledgerBlocked (l : Ledger) : Bool := l.en && (l.faulted || ledgerFull l)

/-- The Ticket with PHASE in DW0 and DW16. -/
def withPhase (p : Bool) (w : Ticket) : Ticket :=
  (w.set 0 (setFld (w.getD 0 0) 31 (b1 p))).set 16 (at32 (b1 p) 31)

/-- Queues a Ticket for ledger `l`, as two writes of class 010 on WCH0 (R272). -/
def ledgerPut (l : Nat) (w : Ticket) (s : State) : State :=
  let y := s.ledgerAt l
  if y.en then
    let a := y.base + BitVec.ofNat 64 (128 * (y.prod.toNat % ledgerSize y))
    let p := withPhase (phaseOf y.prod.toNat (ledgerSize y)) w
    let t := BitVec.ofNat 8 l
    (pushOwn 2 (.ledger t) (a + 64) (dataOf (p.drop 16)) t (pushOwn 2 (.ledger t) a (dataOf (p.take 16)) t s)).setLedger l
      { y with prod := y.prod + 1 }
  else s

/-- The ledgers of tenant `t`'s Tickets: the fabric manager's, and its own (R276). -/
def ledgersOf (t : Nat) : List Nat := if t = 0 then [0] else [0, t]

/-- Forming a Ticket zeroes the counts, clears CARRY and advances SEQ (R272). -/
def tallyClear (t : Nat) (s : State) : State :=
  let y := s.tallyAt t
  s.setTally t { accepted := 0, folded := 0, delivered := 0, notify := 0, viol := 0, wsum := 0, sat := false, carry := 0,
                 seq := y.seq + 1, span := s.tly.minutes }

/-- FINAL Tickets that wait go first once there is room (R279). -/
def drainFinal : Nat → State → State
  | 0, s => s
  | n + 1, s =>
    match s.tly.final with
    | w :: rest => if ledgerBlocked (s.ledgerAt 0) then s else drainFinal n (ledgerPut 0 w (s.upTly fun y => { y with final := rest }))
    | [] => s

/-- FINAL Tickets that can go, go. -/
def drainFinals (s : State) : State := drainFinal s.tly.final.length s

end Sys2Proof.Machine
end

