-- ==== Sys2Proof/Machine/MbxOps.lean ====
section
/-! DEFINITION. The mailbox protocol (file 09): starting a command, rights, the journal, answers and the completion event. -/

namespace Sys2Proof.Machine

/-! ### Status codes (Table 9-6) -/

def stOk : Byte := 0x00
def stBusy : Byte := 0x01
def stBusyMerging : Byte := 0x02
def stRestarting : Byte := 0x03
def stDenied : Byte := 0x04
def stSealed : Byte := 0x05
def stNoTxn : Byte := 0x06
def stTxnOpen : Byte := 0x07
def stTxnFull : Byte := 0x08
def stAdmission : Byte := 0x09
def stTwin : Byte := 0x0A
def stBadArg : Byte := 0x0B
def stNotSupported : Byte := 0x0C
def stAborted : Byte := 0x0D

/-! ### The catalogue's issuers (R172, Tables 9-9 to 9-16) -/

/-- Who may issue a command: control mailboxes, mailbox 7 alone, tenant mailboxes, and tenant mailboxes with SELF_CFG or
sealed. -/
inductive Issuer where
  | c | s | cT | cTplus | t
deriving DecidableEq, Repr

/-- The issuer column by opcode; none for an unknown opcode. -/
def issuerOf (op : Nat) : Option Issuer :=
  if op = 0x0000 ∨ op = 0x0001 ∨ op = 0x0120 ∨ op = 0x0200 ∨ op = 0x0201 ∨ op = 0x0210 ∨ op = 0x0211 ∨ op = 0x0305 ∨
      op = 0x0701 ∨ op = 0x0800 ∨ op = 0x0600 then some .cT
  else if (0x0100 ≤ op ∧ op ≤ 0x0103) ∨ (0x0110 ≤ op ∧ op ≤ 0x0115) then some .cTplus
  else if (0x0300 ≤ op ∧ op ≤ 0x0304) ∨ op = 0x0311 ∨ op = 0x0400 ∨ (0x0500 ≤ op ∧ op ≤ 0x0502) ∨ op = 0x0700 ∨ op = 0x0702 ∨
      op = 0x0812 ∨ op = 0x0601 ∨ op = 0x0602 ∨ (0x0900 ≤ op ∧ op ≤ 0x0902) then some .c
  else if op = 0x0810 ∨ op = 0x0811 ∨ op = 0x0903 then some .s
  else if op = 0x0310 then some .t
  else none

/-- DW `i` of the arguments, 0 beyond them. -/
def argDw (c : Cmd) (i : Nat) : DW := c.args.getD i 0

/-- Arguments `i` and `i + 1` as one 64-bit word. -/
def arg64 (c : Cmd) (i : Nat) : BitVec 64 := reg64 (argDw c i) (argDw c (i + 1))

/-- The owner of a source: its granule's (R63). -/
def ownerOf (s : State) (src : Nat) : BitVec 8 := s.owner (src / 64)

/-- A ring entry of zeros, or a free region, set, remote entry or group, names no tenant (log entry 14). -/
def ringOwner (s : State) (r : Nat) : Option (BitVec 8) :=
  if ringNow s r = ringZero then none else some (ringTen (ringNow s r))
def regionOwner (s : State) (k : Nat) : Option (BitVec 8) := if s.region k = regZero then none else some (regTen (s.region k))
def mcastOwner (s : State) (k : Nat) : Option (BitVec 8) :=
  if (s.mcastV k).cur = { ten := 0, members := [] } then none else some (s.mcastV k).cur.ten
def remoteOwner (s : State) (k : Nat) : Option (BitVec 8) :=
  if (s.remoteV k).cur = 0 then none else some (remTen (s.remoteV k).cur)
def groupOwner (s : State) (g : Nat) : Option (BitVec 8) :=
  if g = 0 ∨ s.group g = 0 then none else some (grpTen (s.group g))

/-- The numbers `first` to `first + count − 1`, at most `most` of them. -/
def span (first count : DW) (most : Nat) : List Nat :=
  (List.range (min count.toNat most)).map fun i => first.toNat + i

/-- Key of the region that a GT_STG_SEL word selects (Table 5-11). -/
def selKey (w : DW) : Option Nat :=
  let g := (fld w 0 2).toNat
  let i := (fld w 2 12).toNat
  if i < gateSize g then some (4096 * g + i) else none

/-- Owners of the objects that a command names, where they have one (R172). -/
def namedOwners (s : State) (c : Cmd) : List (BitVec 8) :=
  match c.opcode.toNat with
  | 0x0110 => (span (argDw c 0) (argDw c 1) 127).map fun k => ownerOf s k
  | 0x0111 => (span (argDw c 0) (argDw c 1) 31).filterMap fun r => ringOwner s r
  | 0x0112 => (List.range (min (argDw c 0).toNat 31)).filterMap fun i => (selKey (argDw c (1 + 8 * i))).bind fun k => regionOwner s k
  | 0x0113 => (mcastOwner s (argDw c 0).toNat).toList
  | 0x0114 => (span (argDw c 0) (argDw c 1) 63).filterMap fun k => remoteOwner s k
  | 0x0115 => (span (argDw c 0) (argDw c 1) 127).filterMap fun g => groupOwner s g
  | 0x0200 => [ownerOf s (fld (argDw c 0) 0 18).toNat]
  | 0x0201 => [ownerOf s (argDw c 0).toNat]
  | 0x0210 | 0x0211 => (ringOwner s (argDw c 0).toNat).toList
  | 0x0305 | 0x0600 => [fld (argDw c 0) 0 8]
  | _ => []

/-- A command inside the running secured message of the mailbox's session (R173). -/
def inSession (s : State) (m : Mbx) : Bool := (s.mailbox (mbxKey m)).secured.isSome

/-- The mailbox may issue the command (R172). -/
def mayIssue (s : State) (m : Mbx) (c : Cmd) : Bool :=
  match issuerOf c.opcode.toNat, m with
  | none, _ => false
  | some .s, .ctl n => decide (n.val = 7)
  | some .s, .ten _ => false
  | some .t, .ctl _ => false
  | some _, .ctl _ => true
  | some .c, .ten _ => false
  | some .cTplus, .ten t =>
    ((s.tenantR t.toNat).selfCfg || (s.tenantR t.toNat).isSealed) && (namedOwners s c).all fun o => o = t
  | some _, .ten t => (namedOwners s c).all fun o => o = t

/-- The tenants whose sealing keeps a control-mailbox command out (R173): the owners named, for all but TEN_STATUS. -/
def sealedNamed (s : State) (m : Mbx) (c : Cmd) : Bool :=
  match m with
  | .ctl _ => c.opcode ≠ 0x0305 && (namedOwners s c).any fun t => sealedTen s t
  | .ten t => sealedTen s t && !inSession s m && c.opcode ≠ 0x0000 && c.opcode ≠ 0x0001 && c.opcode ≠ 0x0800

/-! ### Firmware -/

/-- READY: Twifomon serves the mailboxes (Table 9-4). -/
def fwReady (s : State) : Bool := decide (s.fw.phase = .ready) && domOn s dMgt

/-- RESTARTING: Twifomon restarts or is exchanged (R170). In the boot it starts for the first time, and the bit keeps its reset value 0
(Table 9-4). -/
def fwRestarting (s : State) : Bool := s.fw.phase = .restarting || s.fw.phase = .exchanging

/-- Every GO is answered RESTARTING: in a restart, in an exchange, and until the first READY (R170, R306). -/
def goRestarts (s : State) : Bool := s.fw.phase = .boot || fwRestarting s

/-! ### Starting and answering (Table 9-7, R165–R170) -/

/-- The running command; inside a secured message, the one it carries. -/
def curCmd (mb : Mailbox) : Option Cmd :=
  match mb.secured with
  | some c => some c
  | none => mb.cmd

/-- The completion event of R167: an ASSERT with COOKIE = SEQ on the wired path. -/
def noteMsg (s : State) (src : BitVec 18) (seq : BitVec 16) : Msg :=
  { src, kind := kAssert, n := 1, first := seq.setWidth 28, last := seq.setWidth 28, time := s.glb.now, port := 0xFF,
    reqid := 0, colour := 0, relayed := false, srcBlock := 0, epoch := s.glb.epoch, noPort := true }

/-- Applies the completion event where the source is the mailbox tenant's, or counts the mismatch. -/
def completionEvent (m : Mbx) (seq : BitVec 16) (s : State) : State :=
  let mb := s.mailbox (mbxKey m)
  if mb.noteValid then
    if srcTen (srcNow s mb.noteSrc.toNat) = mbxTenant m then enqueue 16 (noteMsg s mb.noteSrc seq) s
    else bump (tenPage (mbxTenant m).toNat + 0x870) s
  else s

/-- The fields of MBX_CMD that a held write or a start carries. -/
def loadCmd (mb : Mailbox) (c : Cmd) : Mailbox :=
  { mb with opcode := c.opcode, seq := c.seq, argLen := BitVec.ofNat 11 c.argLen, note := c.note, go := true, done := false,
            busy := .go, cmd := none, secured := none, held := none, slow := false }

/-- Step 5: the response is written, GO, RUN and ARGS_TAKEN fall, and a held write starts the next command (R166). -/
def finishMbx (mb : Mailbox) (status : Byte) (res : List DW) (bytes : Nat) (replay : Bool) : Mailbox :=
  let mb1 := { mb with status, rspSeq := mb.seq, resLen := BitVec.ofNat 10 bytes, done := true, replay, go := false,
                       busy := .idle, cmd := none, secured := none, res := res ++ mb.res.drop res.length, slow := false }
  match mb.held with
  | some c => loadCmd mb1 c
  | none => mb1

/-- Answers the command of mailbox `m` with a result of `bytes` bytes: response, completion event when NOTE is set, and a held command's
start. -/
def respondN (m : Mbx) (status : Byte) (res : List DW) (bytes : Nat) (replay : Bool) (s : State) : State :=
  let k := mbxKey m
  let mb := s.mailbox k
  let s1 := perf dMgt 0x50 (s.setMailbox k (finishMbx mb status res bytes replay))
  if mb.note then completionEvent m mb.seq s1 else s1

/-- Answers with a result of whole DWs. -/
def respond (m : Mbx) (status : Byte) (res : List DW) (replay : Bool) (s : State) : State :=
  respondN m status res (4 * res.length) replay s

/-- Bytes of a secured response on the wire (R258, log entry 9): 4 of session ID, 2 of length, the ciphertext of 2 bytes of length, the
plaintext's DW and `n` DWs of result, and a 16-byte tag. -/
def securedBytes (n : Nat) : Nat := 4 * n + 28

/-- Those bytes as DWs: the session ID, the length of what follows it, and the ciphertext and tag, which are free. -/
def securedDws (s : State) (id : DW) (n : Nat) : List DW :=
  id :: ((BitVec.ofNat 16 (4 * n + 22)).setWidth 32 ||| (Config.spdmDw s.freeCtr 1 &&& 0xFFFF0000#32)) ::
    (List.range (n + 5)).map fun i => Config.spdmDw s.freeCtr (i + 2)

/-- Ends the running command with an answer that is journalled (R168), but for MBX_NOP; a command inside a secured message answers in
the response of SPDM_MSG. -/
def answer (m : Mbx) (status : Byte) (res : List DW) (s : State) : State :=
  let k := mbxKey m
  let mb := s.mailbox k
  match mb.cmd with
  | none => s
  | some c =>
    match mb.secured with
    | none =>
      let j := if c.opcode = 0 then mb.journal else some { opcode := c.opcode, seq := c.seq, status, res, bytes := 4 * res.length }
      respond m status res false (s.setMailbox k { mb with journal := j })
    | some _ =>
      let w := securedDws s mb.sessId res.length
      let j : Journal := { opcode := c.opcode, seq := c.seq, status := stOk, res := w, bytes := securedBytes res.length }
      respondN m stOk w (securedBytes res.length) false
        (s.setMailbox k { mb with journal := some j, plain := some (status, res), seqOut := mb.seqOut + 1 }).nextFree

/-- An answer that is never journalled: NOT_SUPPORTED for an unknown opcode, DENIED, RESTARTING (R168). -/
def answerBare (m : Mbx) (status : Byte) (s : State) : State := respond m status [] false s

/-- Twifomon waits on a condition before it answers. -/
def waitOn (m : Mbx) (b : Busy) (s : State) : State :=
  s.setMailbox (mbxKey m) { s.mailbox (mbxKey m) with busy := b }

/-- DWs of the argument area, `n` bytes of them. -/
def argDws (mb : Mailbox) (n : Nat) : List DW :=
  (List.range ((n + 3) / 4)).map fun i =>
    let w := Tbl.get zeroD mb.arg i
    if n % 4 ≠ 0 ∧ i = n / 4 then w &&& BitVec.ofNat 32 (2 ^ (8 * (n % 4)) - 1) else w

/-- The command as step 3 copies it. -/
def copyCmd (mb : Mailbox) : Cmd :=
  { opcode := mb.opcode, seq := mb.seq, argLen := mb.argLen.toNat, note := mb.note, args := argDws mb (min mb.argLen.toNat 1024) }

/-- The running command with opcode `op` whose checks have passed, where Twifomon serves it. -/
def taken (s : State) (m : Mbx) (op : Nat) : Option Cmd :=
  let mb := s.mailbox (mbxKey m)
  if mb.busy = .taken ∧ fwReady s then
    match curCmd mb with
    | some c => if c.opcode.toNat = op then some c else none
    | none => none
  else none

/-- Runs `f` on the running command `op` of mailbox `m`, after what every command checks: ARGLEN at most 1,024 with at least `n` DWs
(BAD_ARG), and sealing (R173). Nothing happens where no such command runs (log entry 15). -/
def runCmd (m : Mbx) (op n : Nat) (f : Cmd → State → State) (s : State) : State :=
  match taken s m op with
  | none => s
  | some c =>
    if 1024 < c.argLen ∨ c.args.length < n then answer m stBadArg [] s
    else if sealedNamed s m c then answer m stSealed [] s
    else f c s

/-- The mailbox of a key. -/
def mbxOf (k : Nat) : Mbx := if k < 256 then .ctl ⟨k % 8, Nat.mod_lt _ (by decide)⟩ else .ten (BitVec.ofNat 8 (k - 256))

/-- Mailboxes that hold anything. -/
def mbxKeys (s : State) : List Nat := s.mbx.map Prod.fst

/-- Every running command of another mailbox than that of key `m` is answered RESTARTING, as is what was held behind it (R265). -/
def restartOthers (m : Nat) (s : State) : State :=
  let one := fun (s : State) (k : Nat) => if k = m ∨ (s.mailbox k).busy = .idle then s else respond (mbxOf k) stRestarting [] false s
  (mbxKeys s).foldl one ((mbxKeys s).foldl one s)

/-- Every running command is answered RESTARTING, and so is what was held behind it (R170). -/
def restartAll (s : State) : State :=
  let one := fun (s : State) (k : Nat) => if (s.mailbox k).busy = .idle then s else respond (mbxOf k) stRestarting [] false s
  (mbxKeys s).foldl one ((mbxKeys s).foldl one s)

end Sys2Proof.Machine
end

