-- ==== Sys2Proof/Machine/Launch.lean ====
section
/-! DEFINITION. Ranking, level-queue entry, arbitration, packing, record build and launch as shared operations (files 06 to 08, 13). -/

namespace Sys2Proof.Machine

/-! ### Ready set and rank keys (R113, R114) -/

/-- The destination is ready for select. Multicast is always ready, but for a quarantined set; so is a remote target that leaves this
block, but for a quarantined entry (Table 16-4). -/
def destReady (s : State) (e : SrcEntry) (ep : BitVec 16) : Bool :=
  !(decide (srcDestType e = 2) && s.dlv.qRemote.contains (srcDestIdx e).toNat) &&
    match destOf s e ep with
    | .half r => halfOpen s r.toNat
    | .mcast k => !s.dlv.qMcast.contains k
    | .remote _ _ => true

/-- A sealed tenant's key slot is in service (Table 16-4). -/
def keyReady (s : State) (t : BitVec 8) : Bool := !(sealedTen s t && s.fw.qKey.contains t.toNat)

/-- The event that source `k` offers to its ranking tree. A captured event whose entry read EN 0 when capture ended is never selected
(R307). -/
def readyEv (s : State) (k : Nat) : Option Ev :=
  match (s.dyn k).st, (s.dyn k).ev with
  | .pending, some e =>
    let ent := evEntry s k e
    if !srcMask ent && !(e.capture && !s.glb.capture) && destReady s ent e.epoch && keyReady s (srcTen ent) then some e else none
  | _, _ => none

/-- What the ranking tree compares: level, slot with its time, bank and index. -/
structure RankKey where
  lvl : Nat
  time : Option Nat
  bank : Nat
  idx : Nat
deriving DecidableEq, Repr

/-- The key of source `k`'s event. -/
def rankKey (s : State) (k : Nat) (e : Ev) : RankKey :=
  { lvl := (srcLvl (evEntry s k e)).toNat, time := (evSlot s e).map fun q => q.2.2.1.toNat,
    bank := (bankOf (BitVec.ofNat 18 k)).toNat, idx := bankIdx (BitVec.ofNat 18 k) }

/-- Bank and index order. -/
def placeBefore (a b : RankKey) : Bool := decide (a.bank < b.bank) || (decide (a.bank = b.bank) && decide (a.idx < b.idx))

/-- `a` outranks `b`. -/
def outranks (a b : RankKey) : Bool :=
  if a.lvl ≠ b.lvl then decide (b.lvl < a.lvl)
  else
    match a.time, b.time with
    | some x, some y => if x ≠ y then decide (x < y) else placeBefore a b
    | some _, none => true
    | none, some _ => false
    | none, none => placeBefore a b

/-- A level queue counts as full: 64 requests, entering ones among them, or a full pacer stage (R114, R157). -/
def levelFull (s : State) (l : Nat) : Bool :=
  decide (64 ≤ (s.selQ l).length + (s.lq l).length) || decide (16 ≤ (s.paceQ l).length)

/-- The better of the best so far and source `k`. -/
def betterOf (s : State) (best : Option (Nat × Ev)) (k : Nat) : Option (Nat × Ev) :=
  match readyEv s k with
  | none => best
  | some e =>
    if levelFull s (srcLvl (evEntry s k e)).toNat then best
    else
      match best with
      | none => some (k, e)
      | some (j, f) => if outranks (rankKey s k e) (rankKey s j f) then some (k, e) else best

/-- The event that a slice's tree selects next. -/
def bestOf (s : State) (slice : Nat) : Option (Nat × Ev) :=
  ((listedSources s).filter fun k => sliceOf (BitVec.ofNat 18 k) = slice).foldl (betterOf s) none

/-- One winner becomes ISSUED and its request goes to the level queue of its level. -/
def selectOne (k i : Nat) (e : Ev) (s : State) : State :=
  let ent := evEntry s k e
  let l := srcLvl ent
  let q : Req := { kind := .event (BitVec.ofNat 18 k), lvl := l, dest := destOf s ent e.epoch, epoch := e.epoch, age := s.stepNo,
                   sel := 64 * s.stepNo + i, res := false }
  let s1 := s.setDyn k { s.dyn k with st := .issued }
  perf (dSlc (sliceOf (BitVec.ofNat 18 k))) 0x22 (s1.setSelQ l.toNat (s1.selQ l.toNat ++ [q]))

/-- Up to `n` winners of one handshake, the first with number `i`. -/
def selectUp (slice : Nat) : Nat → Nat → State → State
  | 0, _, s => s
  | n + 1, i, s =>
    match bestOf s slice with
    | some (k, e) => selectUp slice n (i + 1) (selectOne k i e s)
    | none => s

/-! ### Entry into a level queue (R113, R143, R157) -/

/-- Multicast sources that hold a residue entry. -/
def residueEntries (s : State) : Nat := (mcSources s).countP fun k => match s.mc k with | some run => run.residue ≠ [] | none => false

/-- Indices of a set's members for which `p` holds. -/
def membersWhere (rings : List (BitVec 15)) (p : Nat → Bool) : List Nat :=
  (List.range rings.length).filter fun m => p (rings.getD m 0).toNat

/-- The member request of a healthy member with space. -/
def memberIn (q : Req) (k m : Nat) (r : BitVec 15) (s : State) : State :=
  presentMember { q with kind := .member (BitVec.ofNat 18 k) m, dest := .half r, age := s.stepNo, res := true } r.toNat (reserve r.toNat s)

/-- Expansion of a multicast request over its members (R143). -/
def expand (q : Req) (k set : Nat) (s : State) : State :=
  let rings := (mcastAt s set q.epoch).members
  let full := membersWhere rings fun r => healthy s r && (s.half r).full
  let now := membersWhere rings fun r => halfOpen s r
  let skips := rings.length - full.length - now.length
  if full ≠ [] ∧ 4096 ≤ residueEntries s then returnReq q (bump (dlvPage + 0x0C0) s)
  else
    let s1 := countSkips skips (s.setMc k (some { rings, residue := full, launched := none, sel := q.sel }))
    mcFinish k (now.foldl (fun s m => memberIn q k m (rings.getD m 0) s) s1)

/-- A request for half `r` with its token joins the level queue, reserving space. -/
def enterHalf (q : Req) (r : Nat) (s : State) : State := present { q with res := true } (reserve r s)

/-- The request at the head of a level's entry: it takes a token and reserves space; without space it is returned before it takes a
token (log entry 16). -/
def enterReq (q : Req) (s : State) : State :=
  match q.dest, q.kind with
  | .half r, _ =>
    if !halfOpen s r.toNat then returnReq q s
    else
      match entryToken q.lvl.toNat r.toNat s with
      | some t => enterHalf q r.toNat t
      | none => paceWait q s
  | .mcast set, .event src => expand q src.toNat set s
  | .mcast _, _ => s
  | .remote _ _, _ => present q s

/-- A request on its way to level queue `l` cannot enter: it finds no token, and the pacer stage holds its 16 (R157). -/
def entryBlocked (l : Nat) (q : Req) (s : State) : Bool :=
  match q.dest with
  | .half r => decide (16 ≤ (s.paceQ l).length) && halfOpen s r.toNat && (entryToken l r.toNat s).isNone
  | _ => false

/-- A request that passes the waiting ones: one for a half with a whole guarantee token (R157). -/
def entryPasses (q : Req) (s : State) : Bool :=
  match q.dest with
  | .half r => halfOpen s r.toNat && (guarToken r.toNat s).isSome
  | _ => false

/-- The request that enters level queue `l` next. -/
def nextEntry (l : Nat) (s : State) : Option Req :=
  match s.selQ l with
  | [] => none
  | q :: rest => if entryBlocked l q s then rest.find? fun x => entryPasses x s else some q

/-- A waiting request whose token has come goes on. -/
def leavePace (q : Req) (r : Nat) (s : State) : State := if q.res then present q s else enterHalf q r s

/-- The first waiting request that finds a token, with the requests before and after it and the state after taking it. -/
def findPaced (s : State) : List Req → List Req → Option (Req × Nat × List Req × State)
  | _, [] => none
  | before, q :: after =>
    match reqHalf q with
    | none => findPaced s (before ++ [q]) after
    | some r =>
      match anyToken r s with
      | some t => some (q, r, before ++ after, t)
      | none => findPaced s (before ++ [q]) after

/-- Waiting requests without a reservation whose half has no space any more. -/
def pacedLost (s : State) (q : Req) : Bool :=
  !q.res && match reqHalf q with | some r => !halfOpen s r | none => false

/-! ### Arbitration (R136–R138) -/

/-- Arbiter input of a level. -/
def inputOf (s : State) (l : BitVec 4) : Nat := (fld s.dlv.lvlMap (4 * l.toNat) 4).toNat

/-- What presents at an arbiter. -/
inductive Cand where
  | head (l : Nat) (q : Req)
  | parked (q : Req)
  | memb (q : Req)
  | scan (r : Nat)
  | own (o : Own)
deriving DecidableEq, Repr

/-- The request of a candidate. A SCAN_RESUME has level 0 and reserves its place at its grant (log entry 17). -/
def candReq (s : State) : Cand → Option Req
  | .head _ q | .parked q | .memb q => some q
  | .scan r => some { kind := .scanResume, lvl := 0, dest := .half (BitVec.ofNat 15 r), epoch := s.glb.epoch, age := 0, sel := 0, res := true }
  | .own _ => none

/-- Input, age, class at equal age (R137), then order of select or ring. -/
def candKey (s : State) (c : Cand) : Nat × Nat × Nat × Nat :=
  match c with
  | .own o => (15, o.age, 1, 0)
  | .scan r => (inputOf s 0, 0, 0, r)
  | .head _ q | .parked q | .memb q =>
    match q.kind, q.dest with
    | .residue _ _, .half r => (inputOf s q.lvl, q.age, 2, r.toNat)
    | _, _ => (inputOf s q.lvl, q.age, 0, q.sel)

/-- `a` is older than `b` (R137). -/
def olderCand (s : State) (a b : Cand) : Bool :=
  let x := candKey s a
  let y := candKey s b
  if x.2.1 ≠ y.2.1 then decide (x.2.1 < y.2.1)
  else if x.2.2.1 ≠ y.2.2.1 then decide (x.2.2.1 < y.2.2.1)
  else if x.1 ≠ y.1 then decide (y.1 < x.1)
  else decide (x.2.2.2 < y.2.2.2)

/-- The half has a granted write that has not launched (R141). -/
def halfGranted (s : State) (r : Nat) : Bool :=
  (s.grants (chanOf r)).any fun g => match g with | .recs h _ _ _ _ _ => decide (h.toNat = r) | .own _ => false

/-- The half's SCAN_RESUME goes before every other record (R121). -/
def scanFirst (s : State) (r : Nat) : Bool := (s.half r).scanOwed.isSome && healthy s r

/-- A request takes part in a decision of channel `c`. -/
def takesPart (s : State) (c : Nat) (q : Req) : Bool :=
  match reqHalf q with
  | some r => decide (chanOf r = c) && !halfGranted s r && !scanFirst s r
  | none => false

/-- Halves of channel `c` whose SCAN_RESUME can go. -/
def scanHalves (s : State) (c : Nat) : List Nat :=
  (s.dlv.half.map Prod.fst).filter fun r =>
    decide (chanOf r = c) && (s.half r).scanOwed.isSome && halfOpen s r && !halfGranted s r

/-- What takes part in a decision of channel `c`. In pending scan only the block's own writes launch (R119). -/
def cands (s : State) (c : Nat) : List Cand :=
  let heads := (List.range 16).filterMap fun l =>
    match s.lq l with
    | q :: _ => if takesPart s c q then some (Cand.head l q) else none
    | [] => none
  let recs := heads ++ (s.dlv.hamper.filter (takesPart s c)).map Cand.parked ++ (s.dlv.members.filter (takesPart s c)).map Cand.memb ++
    (scanHalves s c).map Cand.scan
  (if s.glb.ranking then recs else []) ++ (if c = 0 then s.dlv.own.take 1 |>.map Cand.own else [])

/-- The first of a list for the order `r`. -/
def leastBy {α : Type} (r : α → α → Bool) : List α → Option α
  | [] => none
  | a :: l => some (l.foldl (fun b x => if r x b then x else b) a)

/-- Candidates at the highest input. -/
def topInput (s : State) (l : List Cand) : List Cand :=
  let i := l.foldl (fun m c => max m (candKey s c).1) 0
  l.filter fun c => (candKey s c).1 = i

/-- The candidate that a decision grants; `nth` says that it goes to the oldest (R137). -/
def winner (s : State) (nth : Bool) (l : List Cand) : Option Cand :=
  leastBy (olderCand s) (if nth then l else topInput s l)

/-- Takes the granted candidate from where it waits. -/
def takeCand (c : Cand) (s : State) : State :=
  match c with
  | .head l _ => s.setLq l ((s.lq l).drop 1)
  | .parked q => s.upDlv fun d => { d with hamper := d.hamper.erase q }
  | .memb q => s.upDlv fun d => { d with members := d.members.erase q }
  | .scan r => reserve r s
  | .own _ => s.upDlv fun d => { d with own := d.own.drop 1 }

/-- A queue head that lost moves to the Hamper, or stays and is counted (R136). -/
def parkHead (l : Nat) (s : State) : State :=
  match s.lq l with
  | q :: rest =>
    if s.dlv.hamper.length < 256 then perf dDlv 0x36 ((s.setLq l rest).upDlv fun d => { d with hamper := d.hamper ++ [q] })
    else bump (dlvPage + 0x090) s
  | [] => s

/-- Levels whose heads took part and lost. -/
def losers (l : List Cand) (w : Cand) : List Nat :=
  l.filterMap fun c => if c = w then none else match c with | .head i _ => some i | _ => none

/-! ### Grant and packing (R141) -/

/-- The slot freezes at grant (R76, R77). -/
def freezeEv (k : Nat) (s : State) : State :=
  s.setDyn k { s.dyn k with ev := (s.dyn k).ev.map fun e => { e with frozen := true } }

/-- What a grant does to the work behind its request. -/
def grantReq (q : Req) (s : State) : State :=
  match q.kind with
  | .event src | .member src _ | .residue src _ => freezeEv src.toNat s
  | _ => s

/-- Records that fit before the next 64-byte boundary. -/
def packLimit (s : State) (r : Nat) : Nat :=
  if (s.half r).rsize32 then 2 - (s.half r).prod.toNat % 2 else 4 - (s.half r).prod.toNat % 4

/-- Waiting requests for half `r` that may join a write of version `ep`: those that hold a reservation (R141, R188). -/
def joinable (s : State) (r : Nat) (ep : BitVec 16) : List Req :=
  ((List.range 16).flatMap (fun l => s.lq l) ++ s.dlv.hamper ++ s.dlv.members).filter fun q =>
    forHalf r q && q.res && decide (atOrAfter q.epoch (s.ringV r).x = atOrAfter ep (s.ringV r).x)

/-- Removes one waiting request. -/
def removeReq (q : Req) (s : State) : State :=
  let s1 := (List.range 16).foldl (fun s l => s.setLq l ((s.lq l).erase q)) s
  s1.upDlv fun d => { d with hamper := d.hamper.erase q, members := d.members.erase q }

/-- Puts a request into its place in order of select. -/
def insertSel (q : Req) : List Req → List Req
  | [] => [q]
  | h :: t => if q.sel < h.sel then q :: h :: t else h :: insertSel q t

/-- The records of a write with `q` among them: the granted one stays first, the others stand in order of select (R141). -/
def joinSel (q : Req) : List Req → List Req
  | [] => [q]
  | g :: t => g :: insertSel q t

/-- Joins up to `n` waiting requests, earliest selected first. -/
def joinUp (r : Nat) (ep : BitVec 16) : Nat → List Req → State → List Req × State
  | 0, acc, s => (acc, s)
  | n + 1, acc, s =>
    match leastBy (fun a b => decide (a.sel < b.sel)) (joinable s r ep) with
    | none => (acc, s)
    | some q => joinUp r ep n (joinSel q acc) (grantReq q (bump (dlvPage + 0x0A0) (removeReq q s)))

/-- Records join a write that carries `have` already. In pending scan, and behind an owed SCAN_RESUME, only it launches. -/
def pack (r : Nat) (ep : BitVec 16) (held : List Req) (s : State) : List Req × State :=
  if s.glb.prfActive = pLatency ∨ !s.glb.ranking then (held, s) else joinUp r ep (packLimit s r - held.length) held s

/-- Grants a record request on channel `c`. -/
def grantRec (c : Nat) (q : Req) (r : BitVec 15) (s : State) : State :=
  let p := pack r.toNat q.epoch [q] (grantReq q s)
  let gather := decide (p.2.glb.prfActive = pThroughput) && !p.2.glb.prfBusy && decide (p.1.length < packLimit p.2 r.toNat)
  p.2.setGrants c (p.2.grants c ++ [.recs r p.1 (p.2.half r.toNat).restarts gather q.epoch (ringAt p.2 r.toNat q.epoch)])

/-- Grants a candidate. -/
def grantCand (ch : Nat) (c : Cand) (s : State) : State :=
  let s1 := perf dDlv 0x30 (takeCand c s)
  match c with
  | .own o => s1.setGrants ch (s1.grants ch ++ [.own o])
  | _ =>
    match candReq s c with
    | some q =>
      match q.dest with
      | .half r => grantRec ch q r s1
      | _ => s1
    | none => s1

/-- Grants a channel may hold ahead of launch: two in the pipelined mode, one in the combinational (R138, log entry 18). -/
def grantDepth (s : State) : Nat := if s.glb.prfActive = pLatency then 1 else 2

/-- Writes may be granted: no drain or reset, DLV powered, no FATAL, a free completion tag beyond those of the writes granted already (R30,
R293, R308). -/
def mayGrant (s : State) (c : Nat) : Bool :=
  decide (s.pwr.phase = .run) && domOn s dDlv && !s.log.fatal && decide ((s.grants c).length < grantDepth s) &&
    decide (outstCount s c + (s.grants c).length < 4096)

/-- A decision of channel `ch` over `l` grants `w`. R136 does not say which losing heads park when too few Hamper entries are free: the
model parks the lowest level first, before the granted candidate's own Hamper entry frees (DESIGN CHOICE, log entry 123). -/
def decideFor (ch : Nat) (l : List Cand) (w : Cand) (nth : Bool) (s : State) : State :=
  let s1 := s.setGrantCount ch (if nth then 0 else s.grantCount ch + 1)
  let s2 := if nth then perf dDlv 0x35 (bump (dlvPage + 0x098) s1) else s1
  grantCand ch w ((losers l w).foldl (fun s l => parkHead l s) s2)

/-! ### Records (R126, Tables 6-11, 7-3a, 10-7, 13-3) -/

/-- A record before its place in the half is known: DW0 without PHASE, DW1, DW2 without TWIN, the time, its level and tenant. -/
structure Rec where
  dw0 : DW
  dw1 : DW
  dw2 : DW
  time : BitVec 64
  lvl : BitVec 4
  ten : BitVec 8
deriving DecidableEq, Repr

/-- The time in the record of a slotless event: its launch (R82), for a multicast event that of its first member, since every member
record carries the same DW3 (R144). -/
def slotlessTime (s : State) (k : Nat) : BitVec 64 :=
  match s.mc k with
  | some run => run.launched.getD s.glb.now
  | none => s.glb.now

/-- The record of an event (R82, R126, R201). -/
def eventRec (s : State) (k : Nat) (mcast : Bool) : Rec :=
  let e := (s.dyn k).ev.getD (newEv s s.glb.epoch none false)
  let ent := evEntry s k e
  let kind : BitVec 4 := if srcMode ent = 1 then 1 else 0
  let src := BitVec.ofNat 18 k
  match evSlot s e with
  | some (c, f, t, l) =>
    { dw0 := recDw0 src (srcLvl ent) (srcTen ent) mcast false, dw1 := recDw1 (if l then 0 else c) kind, dw2 := recDw2 f e.dup false l false,
      time := t, lvl := srcLvl ent, ten := srcTen ent }
  | none =>
    { dw0 := recDw0 src (srcLvl ent) (srcTen ent) mcast false, dw1 := recDw1 0 kind, dw2 := recDw2 0 e.dup false true false,
      time := slotlessTime s k, lvl := srcLvl ent, ten := srcTen ent }

/-- The record of FENCE `id`. -/
def fenceRec (s : State) (id : Nat) : Rec :=
  match s.intake.fences.find? fun f => f.id = id with
  | some f =>
    let e := fenceEntry s f
    { dw0 := recDw0 f.src (srcLvl e) (srcTen e) false false, dw1 := recDw1 f.token 4, dw2 := 0, time := f.time, lvl := srcLvl e,
      ten := srcTen e }
  | none => { dw0 := 0, dw1 := 0, dw2 := 0, time := 0, lvl := 0, ten := 0 }

/-- A relayed record as written for tenant `t` (R241). -/
def relayedRec (x : RelRec) (t : BitVec 8) : Rec :=
  { dw0 := setFld (setFld (setFld x.dw0 22 t) 30 0#1) 31 0#1, dw1 := x.dw1,
    dw2 := recDw2 (fld x.dw2 0 24) (bitAt x.dw2 24) true (bitAt x.dw2 26) false, time := x.tsHi ++ x.dw3, lvl := fld x.dw0 18 4, ten := t }

/-- The SCAN_RESUME record of half `r`. -/
def scanRec (s : State) (r : Nat) : Rec :=
  let t := ringTen (ringNow s r)
  match (s.half r).scanOwed with
  | some (q, tm) => { dw0 := recDw0 0x3FFFF 0 t false false, dw1 := recDw1 (q.setWidth 28) 0xE, dw2 := 0, time := tm, lvl := 0, ten := t }
  | none => { dw0 := recDw0 0x3FFFF 0 t false false, dw1 := recDw1 0 0xE, dw2 := 0, time := 0, lvl := 0, ten := t }

/-- The record of a request for half `r`. -/
def recOf (s : State) (r : Nat) (q : Req) : Rec :=
  match q.kind with
  | .event src => eventRec s src.toNat false
  | .member src _ | .residue src _ => eventRec s src.toNat true
  | .fence id => fenceRec s id
  | .relayed x t => relayedRec x t
  | .scanResume => scanRec s r

/-- The half after the record sequence has advanced by one (R127, Table 14-4). -/
def seqStep (h : Half) : Half :=
  { h with recSeq := h.recSeq + 1, seqHi := if h.recSeq = 0xFFFFFFFF then h.seqHi + 1 else h.seqHi }

/-- DW0 to DW3 of record `x` at producer index `p` of a half of `size` records. -/
def rec16 (s : State) (x : Rec) (p size : Nat) : List DW :=
  [setFld x.dw0 31 (b1 (phaseOf p size)), x.dw1, setFld x.dw2 27 (b1 (strapB s)), lo32 x.time]

/-- The record's words: four, or in a sealed half eight with TS_HI, SEQ and TAG (Table 7-4, R255). -/
def recWords (s : State) (r : Nat) (h : Half) (x : Rec) (p size : Nat) : List DW :=
  let w := rec16 s x p size
  if h.rsize32 then
    let body := w ++ [hi32 x.time, h.recSeq]
    let key := (s.recKey (ringTen (ringNow s r)).toNat).getD 0
    body ++ two (gmac64 key (recIv s r h) (bytesOfDws body))
  else w

/-- The data of a write of records from producer index `p`, the half's sequence advancing from `h`. -/
def recData (s : State) (r size : Nat) (h : Half) : Nat → List Rec → List DW
  | _, [] => []
  | p, x :: rest => recWords s r h x p size ++ recData s r size (seqStep h) (p + 1) rest

/-! ### Launch (R132, R140, R144, R149) -/

/-- The half's indices after `n` records, `res` of them from reservations; used and FULL follow (R130). -/
def advanceHalf (r n res : Nat) (s : State) : State :=
  let h := s.half r
  let h1 := (List.range n).foldl (fun h _ => seqStep h) h
  noteFull r (s.setHalf r { h1 with prod := h.prod + BitVec.ofNat 31 n, resv := h.resv - res })

/-- The first member record of source `k`'s event launches: its group counts it (R144, R149). -/
def memberLaunched (k : Nat) (s : State) : State :=
  match s.mc k, (s.dyn k).ev with
  | some run, some e =>
    if run.launched.isSome then s
    else countLaunch (srcGroup (evEntry s k e)).toNat (s.setMc k (some { run with launched := some s.glb.now }))
  | _, _ => s

/-- An event's record launches: the transition of launch, and its group counts it. -/
def eventLaunched (k : Nat) (mirror : Bool) (s : State) : State :=
  match (s.dyn k).ev with
  | some e => countLaunch (srcGroup (evEntry s k e)).toNat (afterLaunch k (evModeOf s k) mirror s)
  | none => s

/-- What the launch of a request's record into half `r` does beyond the half: tally, then its source, FENCE or debt. -/
def reqLaunched (r : Nat) (x : Rec) (q : Req) (s : State) : State :=
  let s1 := perf dDlv 0x32 s
  match q.kind with
  | .event src => eventLaunched src.toNat true (tallyDelivered x.ten x.lvl s1)
  | .member src _ | .residue src _ => mcFinish src.toNat (memberLaunched src.toNat (tallyDelivered x.ten x.lvl s1))
  | .fence id => fenceDone id (tallyDelivered x.ten x.lvl s1)
  | .relayed _ _ => tallyDelivered x.ten x.lvl s1
  | .scanResume => s1.setHalf r { s1.half r with scanOwed := none }

/-- What one request of a grant that becomes a dead slot goes back to (R140). `stopped` says that the half is FAULTED or QUIESCED:
then a member is skipped (R143); after a restart it becomes residue again (log entry 19). The restart has cleared reservations. -/
def deadReq (r : Nat) (stopped restarted : Bool) (q : Req) (s : State) : State :=
  let q1 := if restarted then { q with res := false } else q
  match q.kind with
  | .member src _ | .residue src _ => if stopped then skipMember src.toNat (if q1.res then release r s else s) else returnReq q1 s
  | .scanResume => if q1.res then release r s else s
  | _ => returnReq q1 s

/-- The grant becomes a dead slot. -/
def deadGrant (r : Nat) (qs : List Req) (stopped restarted : Bool) (s : State) : State :=
  presentResidues r (qs.reverse.foldl (fun s q => deadReq r stopped restarted q s) (deadSlot s))

/-- A record write handed to its channel, notifying under the ring's version `ent` of its grant (R125, R188): data, indices, then each record's launch in order, and the notification decision (R132). -/
def launchRecs (c r : Nat) (qs : List Req) (ent : RingEnt) (rg : Region) (tag : BitVec 12) (s : State) : State :=
  let h := s.half r
  let size := halfSize s r
  let xs := qs.map (recOf s r)
  let bytes := if h.rsize32 then 32 else 16
  let a := ringBase (strapB s) (ringNow s r) + BitVec.ofNat 64 (bytes * (h.prod.toNat % size))
  let s1 := putWrite c 0 (.ring (BitVec.ofNat 15 r)) a (bytes * qs.length) (regOrd rg) (regNs rg) (regAlloc rg) (regColour rg)
    (dataOf (recData s r size h h.prod.toNat xs)) tag s
  let s1 := if h.rsize32 then cryTags qs.length s1 else s1
  let s2 := (advanceHalf r qs.length (qs.countP fun q => q.res) s1).upDlv fun d => { d with periodRecs := d.periodRecs + qs.length }
  let s3 := (xs.zip qs).foldl (fun s p => reqLaunched r p.1 p.2 s) s2
  let top := xs.foldl (fun m x => if m.toNat < x.lvl.toNat then x.lvl else m) 0
  notifyAtLaunch r top ((xs.getLast?.map Rec.lvl).getD 0) ent s3

/-- A granted record write at its launch check and the delivery gate (R140). A half lies where its restart, under the version in force, put
it (log entry 37). -/
def launchGrant (c r : Nat) (qs : List Req) (restart : Nat) (ver : RingEnt) (tag : BitVec 12) (s : State) : State :=
  let h := s.half r
  let restarted := decide (h.restarts ≠ restart)
  if qs = [] then deadSlot s
  else if restarted then deadGrant r qs false true s
  else if !healthy s r then deadGrant r qs true false s
  else
    let ent := ringNow s r
    let bytes := if h.rsize32 then 32 else 16
    let a := ringBase (strapB s) ent + BitVec.ofNat 64 (bytes * (h.prod.toNat % halfSize s r))
    let t := ringTen ent
    match gateDecide s 2 a.toNat (bytes * qs.length) (coloursOf s t) with
    | .lets k => launchRecs c r qs ver (s.region k) tag s
    | .fault kind reg =>
      let data := ((recData s r (halfSize s r) h h.prod.toNat (qs.map (recOf s r))).getD 0 0)
      deadGrant r qs true false (faultHalf r (report (dlvViol s kind reg c 5 a t data) t s))

/-- ACCESS code of an own write's report (Table 5-6). -/
def ownAccess (cls : BitVec 3) : BitVec 4 := if cls = 2 then 7 else if cls = 3 then 8 else 9

/-- The target of an own write that the delivery gate refused is marked (Table 5-4). -/
def ownFault (t : WTarget) (s : State) : State :=
  match t with
  | .ring r => faultHalf r.toNat s
  | .ledger l => faultLedger l.toNat s
  | .logEntry _ _ | .logOther => faultErrRing s
  | .snapshot => s.upCtr fun c => { c with snapStopped := true }

/-- An own write meets the delivery gate and launches, or becomes a dead slot. -/
def launchOwn (c : Nat) (o : Own) (tag : BitVec 12) (s : State) : State :=
  match gateDecide s 2 o.addr.toNat 64 (coloursOf s o.ten) with
  | .lets k =>
    let g := s.region k
    let s1 := putWrite c o.cls o.target o.addr 64 (regOrd g) (regNs g) (regAlloc g) (regColour g) o.data tag s
    if o.cls = 2 then perf 0 0x74 s1 else s1
  | .fault kind reg =>
    ownFault o.target (lostCopy o.target
      (deadSlot (report (dlvViol s kind reg c (ownAccess o.cls) o.addr o.ten (o.data.setWidth 32)) o.ten s)))

/-- CRY must be powered to tag a record of a sealed half (R300). -/
def cryWait (s : State) (g : Grant) : Bool :=
  match g with
  | .recs r qs _ _ _ _ => (s.half r.toNat).rsize32 && !domOn s dCry && decide (qs ≠ [])
  | .own _ => false

/-- Sealed records granted while CRY is gated: they wait for an engine (R257). -/
def cryWaiting (s : State) : Nat :=
  (List.range 4).foldl
    (fun n c => (s.grants c).foldl
      (fun n g => match g with | .recs r qs _ _ _ _ => if (s.half r.toNat).rsize32 then n + qs.length else n | .own _ => n) n) 0

/-- The write's gather window is open (R56). -/
def gathering (g : Grant) : Bool :=
  match g with
  | .recs _ _ _ gw _ _ => gw
  | .own _ => false

/-- The write of a gather window for half `r` with what has come: nothing joins a write that has lost its records, or whose half has
restarted. -/
def gatherMore (r n : Nat) (ep : BitVec 16) (qs : List Req) (s : State) : List Req × State :=
  if qs ≠ [] ∧ (s.half r).restarts = n then pack r ep qs s else (qs, s)

/-- The open gather windows of a list take what has come; one whose write is full closes (R56, R141). -/
def joinOpen (s : State) : List Grant → List Grant × State
  | [] => ([], s)
  | .recs r qs n true ep ent :: rest =>
    let p := gatherMore r.toNat n ep qs s
    let t := joinOpen p.2 rest
    (.recs r p.1 n (decide (p.1.length < packLimit p.2 r.toNat)) ep ent :: t.1, t.2)
  | g :: rest => (g :: (joinOpen s rest).1, (joinOpen s rest).2)

/-- Requests that have come join the open gather windows of every channel. -/
def joinWindows (s : State) : State :=
  (List.range 4).foldl (fun s c => (joinOpen s (s.grants c)).2.setGrants c (joinOpen s (s.grants c)).1) s

/-! ### Withdraw (R117, R118, R144) -/

/-- Whether a request belongs to source `k`'s withdraw. -/
def inGrant (k : Nat) (g : Grant) : Bool := (grantReqs g).any (ofSource k)

/-- The grant without source `k`'s records. -/
def dropFromGrant (k : Nat) (g : Grant) : Grant :=
  match g with
  | .recs r qs n gw ep ent => .recs r (qs.filter fun q => !ofSource k q) n gw ep ent
  | .own o => .own o

/-- Every request of source `k`, wherever it waits. -/
def reqsOf (s : State) (k : Nat) : List Req := (entering s ++ ungranted s ++ s.relay.stage ++ grantedReqs s).filter (ofSource k)

/-- Releases the reservation of a request and presents what waited for the room. -/
def releaseReq (q : Req) (s : State) : State :=
  match q.res, reqHalf q with
  | true, some r => releaseRoom r s
  | _, _ => s

/-- Takes source `k`'s requests from every place. -/
def pullReqs (k : Nat) (s : State) : State :=
  let s1 := removeReqs (ofSource k) s
  let s2 := (List.range 16).foldl (fun s l => s.setSelQ l ((s.selQ l).filter fun q => !ofSource k q)) s1
  let s3 := (List.range 4).foldl (fun s c => s.setGrants c ((s.grants c).map (dropFromGrant k))) s2
  s3.upRelay fun y => { y with stage := y.stage.filter fun q => !ofSource k q }

/-- A withdraw that loses to the launch of a first member record: a CANCEL counts as late; a quarantine waits for the transition of launch
(R118, R144, R335). -/
def loseWithdraw (k : Nat) (s : State) : State :=
  match (s.dyn k).withdraw with
  | some (.cancel _) => cancelLate k (s.setDyn k { s.dyn k with withdraw := none })
  | some .mask => s.setDyn k { s.dyn k with withdraw := none }
  | _ => s

/-- The withdraw of source `k` settles: it wins and takes its requests with it, unless a member record has launched (R144). -/
def settleWithdraw (k : Nat) (s : State) : State :=
  let lost := match s.mc k with | some run => run.launched.isSome | none => false
  if (s.dyn k).withdraw.isNone ∨ (s.dyn k).st ≠ .issued then s
  else if lost then loseWithdraw k s
  else
    let qs := reqsOf s k
    qs.foldl (fun s q => releaseReq q s) (settleWin k ((pullReqs k s).setMc k none))

/-! ### Relay stage and bundles (R238) -/

/-- Moves the head of level queue `l` to the relay stage. -/
def toStage (l : Nat) (s : State) : State :=
  match s.lq l with
  | q :: rest =>
    match q.dest with
    | .remote _ _ => if s.relay.stage.length < 256 then grantReq q ((s.setLq l rest).upRelay fun y => { y with stage := y.stage ++ [q] }) else s
    | _ => s
  | [] => s

end Sys2Proof.Machine
end

