-- ==== Sys2Proof/Machine/TxnOps.lean ====
section
/-! DEFINITION. Transactions as shared operations (file 10): parsing and checking staged entries, admission, the flip, and what a
commit waits for. -/

namespace Sys2Proof.Machine

/-! ### Staged entries -/

/-- One staged entry. -/
inductive Item where
  | src (k : Nat) (e : SrcEntry)
  | ring (r : Nat) (e : RingEnt)
  | region (k : Nat) (e : Region)
  | mcast (k : Nat) (e : McSet)
  | remote (k : Nat) (w : Reg64)
  | group (g : Nat) (w : Reg64)
deriving DecidableEq, Repr

/-- An empty transaction. -/
def Txn.empty : Txn := { srcs := [], rings := [], regions := [], mcasts := [], remotes := [], groups := [] }

/-- Staging an entry that is already staged replaces it (R177). -/
def addItem (t : Txn) (i : Item) : Txn :=
  match i with
  | .src k e => { t with srcs := Tbl.insert k e (t.srcs.erase k) }
  | .ring r e => { t with rings := Tbl.insert r e (t.rings.erase r) }
  | .region k e => { t with regions := Tbl.insert k e (t.regions.erase k) }
  | .mcast k e => { t with mcasts := Tbl.insert k e (t.mcasts.erase k) }
  | .remote k w => { t with remotes := Tbl.insert k w (t.remotes.erase k) }
  | .group g w => { t with groups := Tbl.insert g w (t.groups.erase g) }

/-- Every entry of a transaction. -/
def itemsOf (t : Txn) : List Item :=
  t.groups.map (fun p => .group p.1 p.2) ++ t.rings.map (fun p => .ring p.1 p.2) ++ t.mcasts.map (fun p => .mcast p.1 p.2) ++
    t.remotes.map (fun p => .remote p.1 p.2) ++ t.regions.map (fun p => .region p.1 p.2) ++ t.srcs.map (fun p => .src p.1 p.2)

/-- The limits of Table 10-1. -/
def txnFits (t : Txn) : Bool :=
  decide (t.srcs.length ≤ 16384) && decide (t.rings.length ≤ 4096) && decide (t.regions.length ≤ 1024) &&
    decide (t.mcasts.length + t.remotes.length ≤ 512) && decide (t.groups.length ≤ 1024)

/-! ### Parsing (Table 9-10) -/

/-- DW `i` of a list. -/
def dwAt (l : List DW) (i : Nat) : DW := l.getD i 0

/-- The 64-bit word in DWs `i` and `i + 1`. -/
def qwAt (l : List DW) (i : Nat) : BitVec 64 := reg64 (dwAt l i) (dwAt l (i + 1))

/-- Arguments with a first number and a count: `size` DWs an entry, at most `most`, numbers below `bound`. -/
def spanItems (l : List DW) (most size bound : Nat) (f : Nat → List DW → Item) : Option (List Item) :=
  let first := (dwAt l 0).toNat
  let n := (dwAt l 1).toNat
  if 1 ≤ n ∧ n ≤ most ∧ first + n ≤ bound ∧ 2 + size * n ≤ l.length then
    some ((List.range n).map fun i => f (first + i) (l.drop (2 + size * i)))
  else none

/-- A ring entry from its eight DWs. -/
def ringOfDws (l : List DW) : RingEnt := ringClean { w0 := qwAt l 0, w1 := qwAt l 2, w2 := qwAt l 4, w3 := qwAt l 6 }

/-- One item of GATE_STAGE; none where its GT_STG_SEL selects nothing. -/
def gateItem (l : List DW) : Option Item :=
  (selKey (dwAt l 0)).map fun k => .region k (regClean { lo := qwAt l 2, hi := qwAt l 4, attr := qwAt l 6 })

/-- Items of GATE_STAGE, all or none. -/
def gateItems : Nat → List DW → Option (List Item)
  | 0, _ => some []
  | n + 1, l =>
    match gateItem l, gateItems n (l.drop 8) with
    | some i, some r => some (i :: r)
    | _, _ => none

/-- Member `m` of a multicast set entry whose DWs are `l` (Table 7-11). -/
def mcMember (l : List DW) (m : Nat) : BitVec 15 := fld (dwAt l (1 + m / 2)) (16 * (m % 2)) 15

/-- A multicast set entry; a COUNT above 64 keeps more than 64 members, so that its check refuses it. -/
def mcOfDws (l : List DW) : McSet :=
  { ten := fld (dwAt l 0) 0 8, members := (List.range (fld (dwAt l 0) 8 7).toNat).map fun m => mcMember l m }

/-- The entries that a stage command of opcode `op` names; none where its arguments are malformed. -/
def parseStage (op : Nat) (l : List DW) : Option (List Item) :=
  if op = 0x0110 then spanItems l 127 2 262144 fun k d => .src k (srcClean (qwAt d 0))
  else if op = 0x0111 then spanItems l 31 8 32768 fun k d => .ring k (ringOfDws d)
  else if op = 0x0112 then
    let n := (dwAt l 0).toNat
    if 1 ≤ n ∧ n ≤ 31 ∧ 1 + 8 * n ≤ l.length then gateItems n (l.drop 1) else none
  else if op = 0x0113 then
    let n := (fld (dwAt l 1) 8 7).toNat
    if (dwAt l 0).toNat < 4096 ∧ 2 + (n + 1) / 2 ≤ l.length then some [.mcast (dwAt l 0).toNat (mcOfDws (l.drop 1))] else none
  else if op = 0x0114 then spanItems l 63 2 8192 fun k d => .remote k (remClean (qwAt d 0))
  else if op = 0x0115 then spanItems l 127 2 4096 fun k d => .group k (grpClean (qwAt d 0))
  else none

/-! ### The state that a commit would produce (R336) -/

/-- Value staged at an index. -/
def stagedAt {α : Type} (t : Tbl α) (k : Nat) : Option α := (t.find? fun p => p.1 = k).map Prod.snd

def vRing (s : State) (t : Txn) (r : Nat) : RingEnt := (stagedAt t.rings r).getD (ringNow s r)
def vRegion (s : State) (t : Txn) (k : Nat) : Region := (stagedAt t.regions k).getD (s.region k)
def vMcast (s : State) (t : Txn) (k : Nat) : McSet := (stagedAt t.mcasts k).getD (s.mcastV k).cur
def vRemote (s : State) (t : Txn) (k : Nat) : Reg64 := (stagedAt t.remotes k).getD (s.remoteV k).cur
def vGroup (s : State) (t : Txn) (g : Nat) : Reg64 := (stagedAt t.groups g).getD (s.group g)

/-- Union of indices. -/
def unionKeys (a b : List Nat) : List Nat := b.foldl (fun l k => addRange k l) a

/-- Keys of gate `g`'s regions that are in use in the state after the commit. -/
def vRegionKeys (s : State) (t : Txn) (g : Nat) : List Nat :=
  unionKeys (gateKeys s g) ((t.regions.map Prod.fst).filter fun k => k / 4096 = g)

/-- A tenant number that TEN_DESTROY has retired on this block (R263). -/
def retiredTen (s : State) (t : BitVec 8) : Bool := (s.tenantR t.toNat).retired

/-- Tenant of a staged entry. -/
def itemTen : Item → BitVec 8
  | .src _ e => srcTen e
  | .ring _ e => ringTen e
  | .region _ e => regTen e
  | .mcast _ e => e.ten
  | .remote _ w => remTen w
  | .group _ w => grpTen w

/-- Colours that a tenant's regions may carry (R99, R248). -/
def colourFits (s : State) (t c : BitVec 8) : Bool := holdsColour s t.toNat c || (decide (t = 0) && decide (s.gates.prevColour = some c))

/-- Per-tenant limit of each gate (Table 5-9). -/
def regionLimit : Nat → Nat
  | 0 => 128 | 1 => 32 | _ => 256

/-- The bytes `lo` to `hi` meet the region. -/
def regMeets (r : Region) (lo hi : Nat) : Bool := decide (regStart r ≤ hi) && decide (lo ≤ regEnd r) && decide (regStart r < regEnd r)

/-- Numbers of the `size`-byte units of a range at `base` with `n` units that a region covers. -/
def unitsMet (r : Region) (base size n : Nat) : List Nat :=
  if regEnd r < base ∨ base + size * n ≤ regStart r ∨ regEnd r < regStart r then []
  else
    let a := (max (regStart r) base - base) / size
    let b := (min (regEnd r) (base + size * n - 1) - base) / size
    (List.range (b + 1 - a)).map fun i => a + i

/-- R322 for a valid register region of tenant `u` other than 0. -/
def coversOthers (s : State) (t : Txn) (u : BitVec 8) (r : Region) : Bool :=
  (unitsMet r 0x100000 0x1000 256).any (fun p => p ≠ u.toNat) ||
    (unitsMet r 0x200000 64 32768).any (fun n => ringTen (vRing s t n) ≠ u) ||
    (unitsMet r 0x800000 8 4096).any fun g => s.owner g ≠ u

/-! ### Checks of each entry -/

/-- Source entry `k` (R63, R65, R142, R148, R235, R337). -/
def srcOk (s : State) (t : Txn) (k : Nat) (e : SrcEntry) : Bool :=
  let i := (srcDestIdx e).toNat
  let ten := srcTen e
  decide (ten = ownerOf s k) && decide (srcMode e ≠ 3) &&
    (decide (srcGroup e = 0) || decide (grpTen (vGroup s t (srcGroup e).toNat) = ten)) &&
    match (srcDestType e).toNat with
    | 0 => decide (ringTen (vRing s t i) = ten)
    | 1 => decide (i < 4096) && decide ((vMcast s t i).members ≠ []) && decide ((vMcast s t i).ten = ten)
    | 2 => decide (i < 8192) && decide (srcMode e = 0) && decide (remTen (vRemote s t i) = ten)
    | _ => false

/-- The tenant has an admission share; tenant 0's is unlimited (R158). -/
def hasShare (s : State) (t : BitVec 8) : Bool := decide (t = 0) || decide ((s.tenantR t.toNat).share ≠ 0)

/-- SIZE, BASE_A, BASE_B or TEN changes (R125). -/
def ringMoves (a b : RingEnt) : Bool :=
  decide (ringSize a ≠ ringSize b) || decide (ringBaseA a ≠ ringBaseA b) || decide (ringBaseB a ≠ ringBaseB b) ||
    decide (ringTen a ≠ ringTen b)

/-- Field values that R124 forbids in a ring entry, whoever stages it. -/
def ringFields (s : State) (e : RingEnt) : Bool :=
  decide ((ringSize e).toNat ≤ 10) && (decide (ringGuar e = 0) || hasShare s (ringTen e)) &&
    (!ringEn e || (decide (ringBaseA e ≠ 0) && decide (ringBaseB e ≠ 0)))

/-- A ring whose TEN changes is not covered by an existing register region of another tenant (R322). -/
def ringFree (s : State) (t : Txn) (r : Nat) (e : RingEnt) : Bool :=
  decide (ringTen e = ringTen (ringNow s r)) ||
    (vRegionKeys s t 1).all fun k =>
      let g := vRegion s t k
      !(regValid g && decide (regTen g ≠ 0) && decide (regTen g ≠ ringTen e) && regMeets g (0x200000 + 64 * r) (0x200000 + 64 * r + 63))

/-- Ring entry `r` (R124, R125, R322). -/
def ringOk (s : State) (t : Txn) (r : Nat) (e : RingEnt) : Bool :=
  ringFields s e && !(healthy s r && ringMoves e (ringNow s r)) && ringFree s t r e

/-- Region `k` (R91, R99, R322). Only a valid region is checked. -/
def regionOk (s : State) (t : Txn) (k : Nat) (r : Region) : Bool :=
  let u := regTen r
  !regValid r ||
    (colourFits s u (regColour r) &&
      (decide (u = 0) ||
        (decide (((vRegionKeys s t (k / 4096)).countP fun j => regValid (vRegion s t j) && decide (regTen (vRegion s t j) = u)) ≤
            regionLimit (k / 4096)) &&
          (decide (k / 4096 ≠ 1) || (!regMeets r 0x10000 0x87FFF && !coversOthers s t u r)))))

/-- Multicast set `k` (R142). -/
def mcastOk (s : State) (t : Txn) (e : McSet) : Bool :=
  decide (1 ≤ e.members.length) && decide (e.members.length ≤ 64) && decide e.members.Nodup &&
    e.members.all fun r => ringTen (vRing s t r.toNat) = e.ten

/-- Remote target entry (R235, R337). -/
def remoteOk (s : State) (t : Txn) (w : Reg64) : Bool :=
  (!remEn w || decide ((s.tenantR (remTen w).toNat).handle ≠ 0)) &&
    (remLeaves s w || decide (ringTen (vRing s t (remRing w).toNat) = remTen w))

/-- The TEN of a staged entry: no retired number (R263), and the tenant of a tenant mailbox that stages it (R124, R172, R235), but that a
region with VALID = 0 may carry any other TEN (R99). -/
def itemTenOk (s : State) (own : Option (BitVec 8)) (i : Item) : Bool :=
  !retiredTen s (itemTen i) &&
    ((match i with | .region _ r => !regValid r | _ => false) ||
      match own with | some u => decide (itemTen i = u) | none => true)

/-- A staged entry passes the checks of its chapter. -/
def itemOk (s : State) (own : Option (BitVec 8)) (t : Txn) (i : Item) : Bool :=
  itemTenOk s own i &&
    match i with
    | .src k e => srcOk s t k e
    | .ring r e => ringOk s t r e
    | .region k e => regionOk s t k e
    | .mcast _ e => mcastOk s t e
    | .remote _ w => remoteOk s t w
    | .group g _ => decide (g ≠ 0)

/-- Tenant of the object that the entry replaces, where it has one. -/
def itemOwner (s : State) : Item → Option (BitVec 8)
  | .src k _ => some (ownerOf s k)
  | .ring r _ => ringOwner s r
  | .region k _ => regionOwner s k
  | .mcast k _ => mcastOwner s k
  | .remote k _ => remoteOwner s k
  | .group g _ => groupOwner s g

/-- A staged entry names a sealed tenant's object, or gives one to a sealed tenant, from outside its session (R103, R173). `inside` is
the tenant whose session stages it. A region cleared to zeros is no new region (log entry 128). -/
def itemSealed (s : State) (inside : Option (BitVec 8)) (i : Item) : Bool :=
  let hit := fun (u : BitVec 8) => sealedTen s u && decide (inside ≠ some u)
  hit (itemTen i) || (match itemOwner s i with | some u => hit u | none => false) ||
    match i with
    | .region _ r => decide (r ≠ regZero) && hit (tenantOfColour s (regColour r))
    | _ => false

/-! ### Recheck at commit -/

/-- An unacknowledged UC-U entry of a unit remains (R289). -/
def openUcu (s : State) (u : ErrUnit) : Bool := (findOpen s clsUCU u).isSome

/-- The unit of a staged entry. -/
def itemUnit : Item → ErrUnit
  | .src k _ => uSrc (BitVec.ofNat 18 k)
  | .ring r _ => uRing (BitVec.ofNat 15 r)
  | .region k _ => uRegion k
  | .mcast k _ => { typ := 0x5, val := BitVec.ofNat 28 k }
  | .remote k _ => { typ := 0x5, val := BitVec.ofNat 28 (16384 + k) }
  | .group g _ => { typ := 0x5, val := BitVec.ofNat 28 (32768 + g) }

/-- The object of a staged entry is quarantined. -/
def itemQuar (s : State) : Item → Bool
  | .src k _ => decide ((s.dyn k).st = .quarantined)
  | .ring r _ => (s.half r).quarantined
  | .region k _ => s.gates.qRegion.contains k
  | .mcast k _ => s.dlv.qMcast.contains k
  | .remote k _ => s.dlv.qRemote.contains k
  | .group g _ => s.dlv.qGroup.contains g

/-- A commit of ring entry `r` restarts this block's half (R125). -/
def restarts (s : State) (r : Nat) (e : RingEnt) : Bool := (ringEn e && !halfEn s r) || (s.half r).faulted || halfQui s r

/-- R256: no restart of a sealed half past the last RGEN. -/
def rgenOk (s : State) (i : Item) : Bool :=
  match i with
  | .ring r e => !(sealedTen s (ringTen e) && (s.half r).rgenUsed && restarts s r e && decide ((s.half r).rgen = 0xFFFF))
  | _ => true

/-- Every check of every staged entry, against the state that the commit would produce (R336, R289, R256). -/
def recheck (s : State) (own : Option (BitVec 8)) (t : Txn) : Bool :=
  (itemsOf t).all fun i => itemOk s own t i && !(itemQuar s i && openUcu s (itemUnit i)) && rgenOk s i

/-! ### Admission (R159) -/

/-- STRAP_BUDGET as it reads (Table 2-10). -/
def budgetOf (s : State) : Nat := if s.pwr.straps.budget = 0 then 3200 else s.pwr.straps.budget.toNat

/-- Admission ceiling of a profile. -/
def profileCeil (p : BitVec 2) : Nat := if p = pLatency then 2400 else if p = pThroughput then 12800 else 3200

/-- C of R159 for profile `p`. -/
def ceilOf (s : State) (p : BitVec 2) : Nat := min (budgetOf s) (profileCeil p)

/-- Rings that are listed in force or staged. -/
def vRings (s : State) (t : Txn) : List Nat := unionKeys (s.dlv.ring.map Prod.fst) (t.rings.map Prod.fst)

/-- The half would be healthy and enabled after the commit. -/
def vHealthy (s : State) (t : Txn) (r : Nat) : Bool :=
  match stagedAt t.rings r with
  | some e => ringEn e
  | none => healthy s r

/-- Sum of GUAR over a list of rings. -/
def guarSum (s : State) (t : Txn) (l : List Nat) : Nat := (l.map fun r => (ringGuar (vRing s t r)).toNat).sum

/-- The admission test with ceiling `c`. -/
def admission (s : State) (t : Txn) (c : Nat) : Bool :=
  let h := (vRings s t).filter fun r => vHealthy s t r
  let ten := fun r => ringTen (vRing s t r)
  decide (10 * guarSum s t h ≤ 9 * c) &&
    ((List.range 4).all fun ch => decide (40 * guarSum s t (h.filter fun r => r % 4 = ch) ≤ 9 * c)) &&
    h.all fun r =>
      let sum := guarSum s t (h.filter fun q => ten q = ten r)
      (decide (ten r = 0) || decide (sum ≤ (s.tenantR (ten r).toNat).share.toNat)) && (!sealedTen s (ten r) || decide (sum ≤ 1440))

/-! ### The flip (Table 10-2, step 7) -/

/-- A colour that no region of tenant 0 carries any more is released (R248). -/
def releaseColour (s : State) : State :=
  match s.gates.prevColour with
  | none => s
  | some c =>
    let held := [0, 1, 2].any fun g => (gateKeys s g).any fun k => regValid (s.region k) && decide (regTen (s.region k) = 0) &&
      decide (regColour (s.region k) = c)
    if held then s else s.upGates fun g => { g with prevColour := none }

/-- Installs a region; a rewritten region leaves quarantine (Table 16-4). -/
def installRegion (k : Nat) (r : Region) (s : State) : State :=
  (s.setRegion k r).upGates fun g => { g with qRegion := g.qRegion.erase k }

/-- The new version of an object, with the epoch of its flip (R188). -/
def newVer {α : Type} (v : Ver α) (e : α) (x : BitVec 16) : Ver α := { cur := e, x, prior := v.cur }

/-- A half whose entry reads EN 0 is QUIESCED: residue on it is skipped (R143, Table 7-7). -/
def skipDisabled (r : Nat) (s : State) : State := if halfEn s r then s else skipResidues r s

/-- An adopted ring entry restarts the half that it enables, where the half holds producer state and its RGEN is not used up; an enabled half
continues as it stands (R209, R256). -/
def adoptRestarts (s : State) (r : Nat) (e : RingEnt) : Bool :=
  ringEn e && !halfEn s r && (s.half r).everEnabled && rgenOk s (.ring r e)

/-- The half is QUIESCED until a commit restarts it (R209). -/
def leaveQuiesced (r : Nat) (s : State) : State := s.setHalf r { s.half r with quiesced := true }

/-- Installs ring entry `r` at epoch `x`: a commit restarts the half where R125 says so, an adoption (`restart` false) where it enables one
that holds producer state; a half that an adoption enables otherwise is QUIESCED (R209). -/
def installRing (r : Nat) (e : RingEnt) (x : BitVec 16) (restart : Bool) (s : State) : State :=
  let go := if restart then restarts s r e else adoptRestarts s r e
  let s1 := s.setRingV r (newVer (s.ringV r) e x)
  skipDisabled r (if go then restartHalf r s1 else if !restart && ringEn e && !halfEn s r then leaveQuiesced r s1 else s1)

/-- Installs a hold-off group; EN 0 ends a running soak (R152). -/
def installGroup (g : Nat) (w : Reg64) (s : State) : State :=
  let s1 := (s.setGroup g w).upDlv fun d => { d with qGroup := d.qGroup.erase g }
  if !bitAt w 0 && (s1.grun g).soaking then soakFinish g s1 else s1

/-- Installs a source entry into the shadow; a QUARANTINED source goes to IDLE (Table 6-2, R184). -/
def installSrc (k : Nat) (e : SrcEntry) (x : BitVec 16) (s : State) : State :=
  let s1 := s.setShadow k (some { entry := e, epoch := x })
  if (s1.dyn k).st = .quarantined then s1.setDyn k { s1.dyn k with st := .idle, line := false, rep := none, ev := none } else s1

/-- Installs one staged entry. -/
def installItem (x : BitVec 16) (restart : Bool) (i : Item) (s : State) : State :=
  match i with
  | .src k e => installSrc k e x s
  | .ring r e => installRing r e x restart s
  | .region k e => installRegion k e s
  | .mcast k e => (s.setMcastV k (newVer (s.mcastV k) e x)).upDlv fun d => { d with qMcast := d.qMcast.erase k }
  | .remote k w => (s.setRemoteV k (newVer (s.remoteV k) w x)).upDlv fun d => { d with qRemote := d.qRemote.erase k }
  | .group g w => installGroup g w s

/-- Edge latches whose source no longer selects them lose their count (R68). -/
def settleLatches (s : State) : State :=
  (s.intake.edge.map Prod.fst).foldl
    (fun s n => if srcMode (srcNow s n) = 0 ∨ srcMode (srcNow s n) = 2 then s else s.setEdge n 0) s

/-- A captured event whose entry reads EN 0 is discarded (R307). -/
def dropCaptured (k : Nat) (s : State) : State :=
  let d := s.dyn k
  bump (slcPage (sliceOf (BitVec.ofNat 18 k)) + 0x020)
    ((freeEv d.rep (freeEv d.ev s)).setDyn k { d with st := .idle, ev := none, rep := none, withdraw := none })

/-- What the end of capture does to a captured event (R307): it takes the configuration in force, or it is discarded. One whose source
the shadow holds waits for its merge. -/
def endCaptureOne (k : Nat) (s : State) : State :=
  let d := s.dyn k
  match d.ev with
  | some e =>
    if !e.capture then s
    else if srcLive s (srcNow s k) s.glb.epoch then s.setDyn k { d with ev := some { e with epoch := s.glb.epoch, capture := false } }
    else if (s.shadow k).isNone then dropCaptured k s
    else s
  | none => s

/-- Capture ends (R121, R307). -/
def endCapture (s : State) : State :=
  (listedSources s).foldl (fun s k => endCaptureOne k s) (s.upGlb fun g => { g with capture := false })

/-- The transaction enables a ring half. -/
def enables (s : State) (t : Txn) : Bool := t.rings.any fun p => ringEn p.2 && !halfEn s p.1

/-- The flip of a transaction to epoch `x` (R182, R183, Table 10-2): the gates and the epoch change in this one step, so no access is
held. -/
def flipAt (x : BitVec 16) (restart : Bool) (t : Txn) (s : State) : State :=
  let ends := s.glb.capture && enables s t
  let s1 := (itemsOf t).foldl (fun s i => installItem x restart i s) s
  let s2 := s1.upGlb fun g => { g with epoch := x, draining := true, merging := g.merging || decide (t.srcs ≠ []) }
  let s3 := settleLatches (releaseColour (s2.upFw fun f => { f with committed := true }))
  if ends then endCapture s3 else s3

/-- A commit's flip, to the next epoch (R182). -/
def flipTxn (t : Txn) (s : State) : State := flipAt (s.glb.epoch + 1) true t s

/-- The flip of a commit: a transaction's entries, or for TEN_DESTROY none (R263). -/
def flip (w : CommitWhat) (s : State) : State :=
  match w with
  | .txn t => flipTxn t s
  | .destroy _ => flipTxn Txn.empty s

/-! ### Messages of Twifomon (Table 12-3) -/

/-- The argument DWs that stage one entry. -/
def itemArgs : Item → Nat × List DW
  | .src k e => (0x0110, [BitVec.ofNat 32 k, 1] ++ two e)
  | .ring r e => (0x0111, [BitVec.ofNat 32 r, 1] ++ two e.w0 ++ two e.w1 ++ two e.w2 ++ two e.w3)
  | .region k e => (0x0112, [1, at32 (BitVec.ofNat 2 (k / 4096)) 0 ||| at32 (BitVec.ofNat 12 (k % 4096)) 2, 0] ++ two e.lo ++ two e.hi ++ two e.attr)
  | .mcast k e =>
    (0x0113, [BitVec.ofNat 32 k, at32 e.ten 0 ||| at32 (BitVec.ofNat 7 e.members.length) 8] ++
      (List.range ((e.members.length + 1) / 2)).map fun i =>
        at32 (e.members.getD (2 * i) 0) 0 ||| at32 (e.members.getD (2 * i + 1) 0) 16)
  | .remote k w => (0x0114, [BitVec.ofNat 32 k, 1] ++ two w)
  | .group g w => (0x0115, [BitVec.ofNat 32 g, 1] ++ two w)

/-- One block of PREPARE. -/
def blockDws (op : Nat) (args : List DW) : List DW :=
  (at32 (BitVec.ofNat 16 op) 0 ||| at32 (BitVec.ofNat 16 (4 * args.length)) 16) :: args

/-- Blocks of a commit, one for each staged entry (log entry 20). -/
def whatDws (w : CommitWhat) : List DW :=
  match w with
  | .txn t => (itemsOf t).flatMap fun i => blockDws (itemArgs i).1 (itemArgs i).2
  | .destroy t => blockDws 0x0311 [t.setWidth 32]

/-- Reads the blocks of a PREPARE or REWASH_ENTRIES; none where one is malformed. `fuel` bounds the number of blocks. -/
def readBlocks : Nat → List DW → Option CommitWhat → Option CommitWhat
  | 0, _, _ => none
  | _ + 1, [], acc => acc
  | n + 1, h :: rest, acc =>
    let op := (fld h 0 16).toNat
    let len := ((fld h 16 16).toNat + 3) / 4
    if op = 0 then acc
    else if op = 0x0311 then some (.destroy (fld (dwAt rest 0) 0 8))
    else
      match parseStage op (rest.take len), acc with
      | some is, some (.txn t) => readBlocks n (rest.drop len) (some (.txn (is.foldl addItem t)))
      | some _, some (.destroy d) => some (.destroy d)
      | _, _ => none

/-- Queues a message of Twifomon or SMT on Seam-T's REQ channel. -/
def sendReq (m : SMsg) (s : State) : State := s.setLink 0 { s.linkAt 0 with txReq := (s.linkAt 0).txReq ++ [m] }

/-- The partner of a pair takes part in a commit. -/
def isPaired (s : State) : Bool := decide (s.twin.state = .paired) || decide (s.twin.state = .degraded)

/-- The checkpoint of a Ticket goes to the partner (R278, Table 12-3). -/
def sendCkpt (w : Ticket) (s : State) : State := if isPaired s then sendReq (.fw 0x20 w) s else s

/-- Queues a message on Seam-T's RSP channel. -/
def sendRsp (m : SMsg) (s : State) : State := s.setLink 0 { s.linkAt 0 with txRsp := (s.linkAt 0).txRsp ++ [m] }

/-! ### Read channel requests (R31) -/

/-- First free read tag from `t` up. -/
def findRdTag (s : State) : Nat → BitVec 8 → Option (BitVec 8)
  | 0, _ => none
  | n + 1, t => if (s.rdOf t.toNat).isNone then some t else findRdTag s n (t + 1)

/-- Address of the witness word in use. -/
def witnessAddr (s : State) : BitVec 64 := s.twin.witness.getD 0

/-- Makes a request of the read channel; with no free tag it is not made. -/
def readReq (what : RdWhat) (s : State) : State :=
  match findRdTag s 256 (Config.readTag s.freeCtr) with
  | none => s
  | some t =>
    let s1 := perfUnit dMgt 1 (s.setRd t.toNat (some { what, time := s.glb.now })).nextFree
    match what with
    | .leaseRead => s1.emit (readOut (witnessAddr s) false t 0 0)
    | .witness _ a => s1.emit (readOut a false t 0 0)
    | .leaseTake c w | .leaseRenew c w | .leaseCommit c w | .leaseRelease c w => s1.emit (readOut (witnessAddr s) true t c w)

/-- The requests that read an image of `kib` KiB at `base`, one after another under one tag; a read that failed shows its first request alone
(log entry 134). -/
def readImage (base : BitVec 64) (ok : Bool) (kib : Nat) (s : State) : State :=
  match findRdTag s 256 (Config.readTag s.freeCtr) with
  | none => s
  | some t =>
    let n := if ok then 16 * min kib 192 else 1
    (perfUnit dMgt n s.nextFree).emitAll ((List.range n).map fun i => readOut (base + BitVec.ofNat 64 (64 * i)) false t 0 0)

/-- The lease word with fields replaced and COUNT one higher (Table 11-5, R205). -/
def leaseSwap (s : State) (held : Bool) (w : BitVec 64) : BitVec 64 :=
  setFld (setFld (setFld w 11 (b1 (strapB s))) 12 (b1 held)) 16 (fld w 16 32 + 1)

/-- Some request for the lease is outstanding. -/
def leaseBusy (s : State) : Bool :=
  s.twin.rd.any fun p =>
    match p.2 with
    | some r => match r.what with | .witness _ _ => false | _ => true
    | none => false

/-- The renewal of a commit that waits for it, once no other request for the lease is outstanding: R206 wants one made at step 3. -/
def renewCommit (s : State) : State :=
  match s.fw.commit, s.twin.word with
  | some c, some w =>
    if decide (c.stage = .renew) && s.twin.lease && !leaseBusy s then readReq (.leaseCommit w (leaseSwap s true w)) s else s
  | _, _ => s

/-! ### DIPs awake for a gate update (R301) -/

/-- Some DIP is gated. -/
def dipAsleep (s : State) : Bool := (List.range 16).any fun n => !domOn s (dDip n)

/-- Every gated DIP is requested. -/
def wakeDips (s : State) : State := (List.range 16).foldl (fun s n => wake (dDip n) s) s

/-- A region of the DIP gate. -/
def ofDipGate (k : Nat) : Bool := decide (k < 4096)

/-- A transaction changes the DIP gate. -/
def changesDip (t : Txn) : Bool := t.regions.any fun p => ofDipGate p.1

/-- A tenant holds regions of the DIP gate. -/
def tenDips (s : State) (t : BitVec 8) : Bool := s.gates.region.any fun p => ofDipGate p.1 && decide (regTen p.2 = t)

/-- What a commit would change of the DIP gate. -/
def whatDips (w : CommitWhat) : Bool :=
  match w with
  | .txn t => changesDip t
  | .destroy _ => false

/-- A gate update that needs the DIPs is under way: none of them gates again before it (R300, R301). -/
def updateAhead (s : State) : Bool :=
  (s.gates.go && s.gates.staged.any fun p => ofDipGate p.1) ||
    (match s.fw.commit with | some c => whatDips c.what | none => false) ||
    (match s.fw.prepared with | some p => whatDips p.what | none => false) ||
    s.mbx.any fun p => decide (p.2.busy = .commitWait) && (match p.2.txn with | some t => changesDip t | none => false)

/-! ### Ending a commit -/

/-- The transaction of a mailbox ends. -/
def closeTxn (m : Mbx) (s : State) : State := s.setMailbox (mbxKey m) { s.mailbox (mbxKey m) with txn := none }

/-- Journals the running command's answer in the step that makes its effect final (R169). -/
def journalNow (m : Mbx) (res : List DW) (s : State) : State :=
  let mb := s.mailbox (mbxKey m)
  match mb.cmd, mb.secured with
  | some c, none => s.setMailbox (mbxKey m) { mb with journal := some { opcode := c.opcode, seq := c.seq, status := stOk, res, bytes := 4 * res.length } }
  | some c, some _ =>
    let j : Journal := { opcode := c.opcode, seq := c.seq, status := stOk, res := securedDws s mb.sessId res.length, bytes := securedBytes res.length }
    (s.setMailbox (mbxKey m) { mb with journal := some j, plain := some (stOk, res) }).nextFree
  | none, _ => s

/-- Answers with the journalled response. -/
def answerJournal (m : Mbx) (s : State) : State :=
  match (s.mailbox (mbxKey m)).journal with
  | some j => respondN m j.status j.res j.bytes false s
  | none => s

/-- Result of TXN_COMMIT: the new epoch and the number of entries to merge. -/
def commitRes (epoch : BitVec 16) (n : Nat) : List DW := [epoch.setWidth 32, BitVec.ofNat 32 n]

/-- The mailbox still runs its commit. -/
def inCommit (s : State) (m : Mbx) : Bool := decide ((s.mailbox (mbxKey m)).busy = .commit)

/-- Answers a commit that ends without a flip. -/
def endCommit (m : Mbx) (status : Byte) (s : State) : State :=
  let s1 := s.upFw fun f => { f with commit := none }
  if inCommit s m then answer m status [] s1 else s1

/-- The coordinator's flip of a mailbox's transaction, journalled in the same step. -/
def flipFor (m : Mbx) (t : Txn) (s : State) : State :=
  let s1 := perf dMgt 0x51 (closeTxn m (flipTxn t s))
  journalNow m (commitRes s1.glb.epoch t.srcs.length) s1

/-- DECIDE for the epoch in force. -/
def sendDecide (s : State) : State := sendReq (.fw 0x03 [s.glb.epoch.setWidth 32]) s

/-- Entries of tenant `t` in a transaction (R174). -/
def holdsTen (s : State) (x : Txn) (t : BitVec 8) : Bool := (itemsOf x).any fun i => itemTen i = t || itemOwner s i = some t

/-- A commit that awaits its vote or its renewal holds entries of tenant `t`: no discard may meet it (R178, log entry 131). -/
def commitHolds (s : State) (t : BitVec 8) : Bool :=
  match s.fw.commit with
  | some c => decide (c.stage ≠ .ack) && (match c.what with | .txn x => holdsTen s x t | .destroy _ => false)
  | none => false

/-- Open transactions that hold entries of tenant `t` are discarded; the mailbox's next command answers ABORTED (R174, R178). The
mailbox of the tenant's own session, if `keep`, loses its transaction without that answer. -/
def discardTxns (t : BitVec 8) (keep : Option Nat) (s : State) : State :=
  s.mbx.foldl
    (fun u p =>
      match p.2.txn with
      | some x => if holdsTen s x t then u.setMailbox p.1 { p.2 with txn := none, aborted := decide (keep ≠ some p.1) } else u
      | none => u) s

/-- Every open transaction is discarded (R178). -/
def discardAll (s : State) : State :=
  s.upMbx fun t => t.map fun p => if p.2.txn.isSome then (p.1, { p.2 with txn := none, aborted := true }) else p

end Sys2Proof.Machine
end

