-- ==== Sys2Proof/Machine/Settle.lean ====
section
/-! DEFINITION. Commands that wait: quiesce, sealing, destroying, masks, fences and scans end here, as shared operations (files 06, 07,
09, 14). -/

namespace Sys2Proof.Machine

/-! ### Halves -/

/-- Steps 3 and 4 of Table 7-12 are done: nothing granted, every launched write completed or timed out. -/
def halfDrained (s : State) (r : Nat) : Bool :=
  !halfGranted s r && ((s.noteQ (chanOf r)).all fun n => n.ring.toNat ≠ r) &&
    s.dlv.outst.all fun p =>
      match p.2 with
      | some w => w.late || decide (w.target ≠ .ring (BitVec.ofNat 15 r))
      | none => true

/-- Rings of tenant `t` with an entry. -/
def ringsOf (s : State) (t : BitVec 8) : List Nat :=
  (s.dlv.ring.map Prod.fst).filter fun r => ringTen (ringNow s r) = t && ringNow s r ≠ ringZero

/-- Enabled rings of tenant `t`. -/
def enabledOf (s : State) (t : BitVec 8) : List Nat := (ringsOf s t).filter fun r => halfEn s r

/-! ### Sealing (Table 14-2) -/

/-- Steps 1 and 2. -/
def sealStart (m : Mbx) (t : BitVec 8) (s : State) : State :=
  (enabledOf s t).foldl (fun s r => quiesceHalf r s) (discardTxns t (some (mbxKey m)) s)

/-- Steps 3 to 5: the key, the session, and the restart of each enabled half with RSIZE 32 and RGEN 0. -/
def sealFinish (t : BitVec 8) (s : State) : State :=
  let key := (s.mailbox (256 + t.toNat)).session.map fun n => recordKey s n
  let s1 := s.setTenantR t.toNat { s.tenantR t.toNat with isSealed := true, session := (s.mailbox (256 + t.toNat)).session }
  let s2 := cryKey (s1.setRecKey t.toNat key)
  (enabledOf s2 t).foldl (fun s r => restartHalf r (s.setHalf r { s.half r with rgenUsed := false })) (wake dCry s2)

/-! ### Destroying (Table 14-8) -/

/-- Granules of tenant `t`. -/
def granulesOf (s : State) (t : BitVec 8) : List Nat :=
  if t = 0 then [] else (s.slc.owner.filter fun p => p.2 = t).map Prod.fst

/-- Sources of tenant `t`'s granules that hold anything. -/
def heldSources (s : State) (t : BitVec 8) : List Nat := (listedSources s).filter fun k => ownerOf s k = t

/-- Step 3 for one source: its event is retracted; an ISSUED one through a withdraw. -/
def retractSrc (k : Nat) (s : State) : State :=
  let d := s.dyn k
  match d.st with
  | .issued =>
    let s1 := (sendWithdraw k (.cancel false) (freeEv d.rep (s.setDyn k { d with rep := none })))
    settleWithdraw k (dropResidue k s1)
  | .quarantined | .idle => s
  | _ => putDyn k { d with st := .idle, ev := none, rep := none, withdraw := none } (freeEv d.rep (freeEv d.ev s))

/-- Steps 1 to 3. -/
def destroyStart (t : BitVec 8) (s : State) : State :=
  let s0 := discardTxns t none s
  let s1 := s0.setMailbox (256 + t.toNat) { s0.mailbox (256 + t.toNat) with session := none, handshake := false, sessId := 0, seqIn := 0, seqOut := 0 }
  let s2 := (s1.gates.region.map Prod.fst).foldl (fun s k => if regTen (s.region k) = t then installRegion k regZero s else s) s1
  let s3 := (heldSources s2 t).foldl (fun s k => retractSrc k s) s2
  (ringsOf s3 t).foldl (fun s r => quiesceHalf r s) s3

/-- Step 3 is over. -/
def destroyDrained (s : State) (t : BitVec 8) : Bool :=
  ((heldSources s t).all fun k => (s.dyn k).st ≠ .issued) && (ringsOf s t).all fun r => halfDrained s r

/-- Every request of source `k` is removed with its reservation, and its residue with it: a cleared source is not delivered (R121, R262). -/
def clearRequests (k : Nat) (s : State) : State :=
  (reqsOf s k).foldl (fun s q => releaseReq q s) ((pullReqs k s).setMc k none)

/-- Step 4 for the sources of a granule; what came for them since step 3 goes with its requests and slots (R262). -/
def zeroGranule (g : Nat) (s : State) : State :=
  (List.range 64).foldl
    (fun s i =>
      let k := 64 * g + i
      let s1 := freeEv (s.dyn k).rep (freeEv (s.dyn k).ev (clearRequests k s))
      ((s1.setMain k 0).setShadow k none).setDyn k { st := .idle, line := false, evMode := 0, tagPort := 0, ev := none, rep := none, withdraw := none }) s

/-- An object of zeros in both versions. -/
def zeroVer {α : Type} (z : α) : Ver α := { cur := z, x := 0, prior := z }

/-- Step 4 for rings, sets, remote entries and groups. -/
def zeroTables (t : BitVec 8) (s : State) : State :=
  let s1 := (ringsOf s t).foldl (fun s r => (s.setRingV r (zeroVer ringZero)).setHalf r (halfD r)) s
  let s2 := (s1.dlv.mcast.map Prod.fst).foldl
    (fun s k => if (s.mcastV k).cur.ten = t then s.setMcastV k (zeroVer { ten := 0, members := [] }) else s) s1
  let s3 := (s2.dlv.remote.map Prod.fst).foldl (fun s k => if remTen (s.remoteV k).cur = t then s.setRemoteV k (zeroVer 0) else s) s2
  (s3.dlv.group.map Prod.fst).foldl
    (fun s g => if grpTen (s.group g) = t then soakFinish g (s.setGroup g 0) else s) s3

/-- Merge ends with the last shadow entry. -/
def mergeDone (s : State) : State :=
  if s.slc.shadow = [] then s.upGlb fun g => { g with merging := false } else s

/-- The FINAL Ticket of TEN_DESTROY goes to the fabric manager's ledger, or waits for room there (R279). -/
def finalTicket (t : Nat) (s : State) : State :=
  let now := s.glb.now
  let w := ticketOf s (BitVec.ofNat 8 t) true (BitVec.ofNat 32 (now.toNat / minuteNs)) 1 now
  let s1 := tallyClear t (sendCkpt w (countTags t s))
  if ledgerBlocked (s1.ledgerAt 0) || !s1.tly.final.isEmpty then s1.upTly fun y => { y with final := y.final ++ [w] } else ledgerPut 0 w s1

/-- Steps 4 to 6. -/
def destroyFinish (t : BitVec 8) (s : State) : State :=
  let n := t.toNat
  let s1 := zeroTables t ((granulesOf s t).foldl (fun s g => zeroGranule g s) s)
  let s2 := (s1.setRecKey n none).upFw fun f => { f with qKey := f.qKey.erase n }
  let s3 := finalTicket n s2
  let s4 := s3.setLedKey n none
  let s5 := (granulesOf s4 t).foldl (fun s g => s.setOwner g 0) s4
  mergeDone ((s5.setLedger n (ledgerD n)).setTenantR n (tenantD n))

/-- The tenant that a commit destroys. -/
def CommitWhat.victim : CommitWhat → Option (BitVec 8)
  | .txn _ => none
  | .destroy t => some t

/-- Tenants with a running TEN_SEAL. -/
def sealing (s : State) : List (BitVec 8) :=
  (mbxKeys s).filterMap fun k => if (s.mailbox k).busy = .seal then some (mbxTenant (mbxOf k)) else none

/-- Tenants with a running TEN_DESTROY: before its commit, in its commit, or for the partner. -/
def destroying (s : State) : List (BitVec 8) :=
  (mbxKeys s).filterMap (fun k => match (s.mailbox k).busy with | .destroy u => some u | _ => none) ++
    (s.fw.commit.bind fun c => c.what.victim).toList ++ (s.fw.prepared.bind fun p => p.what.victim).toList ++
    (s.fw.voteDestroy.map Prod.fst).toList

/-- A TEN_SEAL or TEN_DESTROY of tenant `t` runs. -/
def tenBusy (s : State) (t : BitVec 8) : Bool := (sealing s ++ destroying s).contains t

/-- A TEN_SEAL or TEN_DESTROY runs (R265). -/
def anyTenBusy (s : State) : Bool := decide (sealing s ++ destroying s ≠ [])

/-- An FW_ACTIVATE runs: it waits at step 1 of Table 14-9, or the exchange is under way. -/
def activating (s : State) : Bool := decide (s.fw.phase = .exchanging) || (mbxKeys s).any fun k => (s.mailbox k).busy = .activateWait

/-- Asks the partner to perform a command too, in a PREPARE of its one block (log entry 117). -/
def askPeer (m : Mbx) (dws : List DW) (s : State) : State :=
  sendReq (.fw 0x01 (s.glb.epoch.setWidth 32 :: dws)) (s.upFw fun f => { f with asks := f.asks ++ [{ mbx := some m, epoch := s.glb.epoch }] })

/-- The destroy has not reached a partner that this block has (R263, log entry 21). -/
def partnerOwed (s : State) : Bool := decide (s.pwr.straps.lanes ≠ 0) && !s.twin.absent

/-- A commit may start now: none runs, none is prepared, and no drain or merge. -/
def commitFree (s : State) : Bool := s.fw.commit.isNone && s.fw.prepared.isNone && !s.glb.draining && !s.glb.merging

/-- TEN_DESTROY's steps 4 to 7 on the block that issued it: on a pair a commit follows, else it answers (R263). -/
def destroyEnd (m : Mbx) (t : BitVec 8) (s : State) : State :=
  let s1 := destroyFinish t s
  if isPaired s1 then
    let e := s1.glb.epoch + 1
    let s2 := s1.upFw fun f => { f with commit := some { mbx := m, what := .destroy t, epoch := e, sentAt := s.glb.now, stage := .vote, merge := 0 } }
    waitOn m .commit (sendReq (.fw 0x01 (e.setWidth 32 :: whatDws (.destroy t))) (journalNow m [] s2))
  else answer m stOk [] (s1.setTenantR t.toNat { s1.tenantR t.toNat with retired := partnerOwed s1 })

/-! ### Scans (R119–R121) -/

/-- Some cause of pending scan is in force. -/
def scanCause (s : State) : Bool := s.glb.capture || s.glb.test || s.glb.recovery

/-- GLB_SCAN (Table 6-10). -/
def scanWord (s : State) : Reg64 :=
  at64 (b1 s.glb.capture) 0 ||| at64 (b1 s.glb.test) 1 ||| at64 (b1 s.glb.recovery) 2 ||| at64 (b1 s.glb.stopped) 3 ||| at64 s.glb.scanSeq 16

/-- PRF_SEL (Table 3-4). -/
def prfWord (s : State) : Reg64 := at64 s.glb.prfReq 0 ||| at64 s.glb.prfActive 8 ||| at64 (b1 s.glb.prfBusy) 16

/-- REC_RESUME clears one source (R121): no mirror update, since none of R196's causes applies (log entry 22). -/
def clearSource (k : Nat) (s0 : State) : State :=
  let d := s0.dyn k
  if d.st = .quarantined then s0
  else
    let s := clearRequests k s0
    let s1 := (freeEv d.rep (freeEv d.ev s)).setDyn k { d with st := .idle, ev := none, rep := none, withdraw := none }
    if srcMode (srcNow s1 k) = 1 ∧ d.line then
      let r := ownEvent k false s1
      r.1.setDyn k { r.1.dyn k with st := pendState s1 (srcNow s1 k), ev := some r.2, evMode := 1 }
    else s1

/-- Clears the granules `first` to `first + count − 1`. -/
def clearGranules (first count : Nat) (s : State) : State :=
  ((listedSources s).filter fun k => first ≤ k / 64 && k / 64 < first + count).foldl (fun s k => clearSource k s) s

/-! ### Ending waits -/

/-- Ends the wait of mailbox `m`, where what it waits for has come. -/
def settleOne (m : Mbx) (s : State) : State :=
  match (s.mailbox (mbxKey m)).busy with
  | .fence ahead => if ahead = [] then answer m stOk [s.glb.epoch.setWidth 32] s else s
  | .quiesce r => if halfDrained s r.toNat then answer m stOk [] s else s
  | .mask src peer => if !peer && decide ((s.dyn src.toNat).withdraw = none) then answer m stOk [] s else s
  | .scan => if s.glb.stopped then answer m stOk [lo32 (scanWord s)] s else s
  | .resume first count =>
    if !s.glb.stopped then s
    else
      let s1 := (clearGranules first count s).upGlb fun g => { g with recovery := false }
      if scanCause s1 then answer m stOk [s1.glb.scanSeq.setWidth 32] s1
      else waitOn m .resumeEnd (journalNow m [(s1.glb.scanSeq + 1).setWidth 32] s1)
  | .resumeEnd => if s.glb.stopped then s else answer m stOk [s.glb.scanSeq.setWidth 32] s
  | .profile => if s.glb.prfBusy then s else answer m stOk [lo32 (prfWord s)] s
  | .relayFence blk bs => if bs.any fun b => s.relay.bundles.any fun x => x.blk = blk && x.bseq = b.1 && x.strap = b.2 then s else answer m stOk [] s
  | .seal =>
    let t := mbxTenant m
    if (enabledOf s t).all fun r => halfDrained s r then
      let s1 := sealFinish t s
      answer m stOk [s1.glb.epoch.setWidth 32] s1
    else s
  | .destroy t => if destroyDrained s t && (!isPaired s || commitFree s) then destroyEnd m t s else s
  | _ => s

/-- The expert mask operation ends once its withdraw has settled (Table 6-5). -/
def settleMask (s : State) : State :=
  match s.slc.maskRun with
  | some k => if (s.dyn k.toNat).withdraw = none then s.upSlc fun c => { c with maskRun := none, maskResult := 0 } else s
  | none => s

/-- A YES vote for the commit `w` of the partner at `epoch` (R179). -/
def voteYes (w : CommitWhat) (epoch : BitVec 16) (s : State) : State :=
  sendRsp (.fw 0x02 [at32 epoch 0 ||| at32 (b1 true) 16])
    (s.upFw fun f => { f with prepared := some { what := w, epoch } })

/-- A NO vote with its reason. -/
def voteNo (epoch : BitVec 16) (reason : Byte) (s : State) : State := sendRsp (.fw 0x02 [at32 epoch 0 ||| at32 reason 24]) s

/-- The partner's TEN_DESTROY is performed here and voted for (R263). -/
def settleVote (s : State) : State :=
  match s.fw.voteDestroy with
  | some (t, e) =>
    if destroyDrained s t && fwReady s then
      voteYes (.destroy t) e ((destroyFinish t s).upFw fun f => { f with voteDestroy := none })
    else s
  | none => s

/-- The first of the partner's commands is voted for once its withdraw has settled (R196). -/
def settleAsked (s : State) : State :=
  match s.fw.asked with
  | x :: rest =>
    let done := match x.src with | some k => decide ((s.dyn k.toNat).withdraw = none) | none => true
    if done then sendRsp (.fw 0x02 [at32 x.epoch 0 ||| at32 (b1 true) 16]) (s.upFw fun f => { f with asked := rest }) else s
  | [] => s

/-- Every wait that can end ends, while Twifomon serves the mailboxes. -/
def settleMbx (s : State) : State :=
  let s1 := settleMask s
  if fwReady s1 then settleAsked (settleVote ((mbxKeys s1).foldl (fun s k => settleOne (mbxOf k) s) s1)) else s1

end Sys2Proof.Machine
end

