-- ==== Sys2Proof/Machine/Intake.lean ====
section
/-! DEFINITION. The commands of intake: DIP handshakes, Folder answers, slice applies and wired events (files 02, 04). -/

namespace Sys2Proof.Machine

/-- Waiting FENCEs become requests, while ranking runs and the block is not FATAL (R119, R189, R293). -/
def fencesGo (s : State) : State := if s.glb.ranking && !s.log.fatal then fenceRequests s else s

/-- Serves the handshakes held at one DIP. -/
def serveHeld (dip : Nat) (s : State) : State := serveDip dip (s.heldL dip).length s

/-- DIP_HANDSHAKE: the handshake waits behind those held already, and is taken as soon as nothing keeps it (R22, R25, R48, R80, R189,
R203). -/
def doDipHandshake (dip : Nat) (mv : BitVec 4) (d : BitVec 512) (s : State) : State :=
  serveHeld dip (s.setHeldL dip (s.heldL dip ++ [{ mv, d, stalled := false }]))

def execDipHandshake (dip : Fin 16) (mv : BitVec 4) (d : BitVec 512) (s : State) : Host.Outcome State Fault Refusal :=
  .next (s.run (doDipHandshake dip.val mv d))

/-- A message of `src` waits between the DIP and its slice. -/
def inQueue (s : State) (dip : Nat) (src : BitVec 18) : Bool := (s.queue (8 * dip + sliceOf src)).any fun m => m.src = src

/-- FOLDER_SLICE_ANSWER: a non-empty accumulator is sent, once its queue has room (R80), and the entry waits again; an empty one frees the
entry (R75, R76). -/
def doFolderSliceAnswer (dip : Nat) (src : BitVec 18) (s : State) : State :=
  match (s.folder dip).find? fun e => e.m.src = src with
  | none => s
  | some e =>
    if inQueue s dip src || !accepting s then s
    else if 0 < e.count && queueFull s dip src then s
    else if 0 < e.count then
      sendAcc dip e (s.setFolder dip ((s.folder dip).map fun x => if x.m.src = src then { x with count := 0 } else x))
    else s.setFolder dip ((s.folder dip).filter fun x => x.m.src ≠ src)

def execFolderSliceAnswer (dip : Fin 16) (src : BitVec 18) (s : State) : Host.Outcome State Fault Refusal :=
  .next (s.run (doFolderSliceAnswer dip.val src))

/-- Messages are applied while the block runs and through the drain of a warm reset (R48). -/
def applying (s : State) : Bool := decide (s.pwr.phase = .run) || decide (s.pwr.phase = .drain)

/-- The slice has applied a message now. -/
def stampApply (sl : Nat) (s : State) : State := s.upIntake fun i => { i with lastApply := Tbl.set zeroD i.lastApply sl s.glb.now }

/-- A FATAL block applies nothing (R203): the head `m` of a DIP's queue goes to the partner while Seam-T can carry it, and a wired event
waits for the drain of a reset (log entry 120). -/
def forwardHead (o : Origin) (q : Nat) (m : Msg) (rest : List Msg) (s : State) : State :=
  match o with
  | .dip _ => if canForward s then serveDips (forwardMsg m (fenceDropped m (passMarkers q (s.setQueue q rest)))) else s
  | .wired => s

/-- SLICE_APPLY: the message at the head of the queue reaches its slice (R77), the markers behind it move up (R189), and what waited
for room or for the message goes on. -/
def doSliceApply (o : Origin) (slice : Nat) (s : State) : State :=
  let q := 8 * originKey o + slice
  match s.queue q with
  | [] => s
  | m :: rest =>
    if !applying s then s
    else if s.log.fatal && accepting s then forwardHead o q m rest s
    else if !domOn s (dSlc slice) then wake (dSlc slice) s
    else settleMbx (serveDips (fencesGo (stampApply slice (applyMsg m (passMarkers q (s.setQueue q rest))))))

def execSliceApply (o : Origin) (slice : Fin 8) (s : State) : Host.Outcome State Fault Refusal :=
  .next (s.run (doSliceApply o slice.val))

/-- The input's events come from its edge latch: MODE 00 or 10 of the entry in force (R68). -/
def edgeSelected (s : State) (n : Nat) : Bool := decide (srcMode (srcNow s n) = 0) || decide (srcMode (srcNow s n) = 2)

/-- EDGE_CAUGHT: the selected latch counts the edge, holding at 255 (R69). -/
def doEdgeCaught (n : Nat) (s : State) : State := if edgeSelected s n then s.setEdge n (min 255 (s.edge n + 1)) else s

def execEdgeCaught (n : Fin 1024) (s : State) : Host.Outcome State Fault Refusal := .next (s.run (doEdgeCaught n.val))

/-- LEVEL_CHANGE_SETTLED: a change queues or replaces the one outstanding presentation, or withdraws it when it returns to the level
last presented (R70). -/
def doLevelChangeSettled (n : Nat) (level : Bool) (s : State) : State :=
  let p := s.sampler n
  if p.level = level then s else s.setSampler n { p with level, out := if level = p.presented then none else some level }

def execLevelChangeSettled (n : Fin 1024) (level : Bool) (s : State) : Host.Outcome State Fault Refusal :=
  .next (s.run (doLevelChangeSettled n.val level))

/-- A wired event as AON stamps it (R68). -/
def wiredMsg (s : State) (n : Nat) (kind : BitVec 4) (count : Nat) : Msg :=
  { src := BitVec.ofNat 18 n, kind, n := count, first := 0, last := 0, time := s.glb.now, port := 0xFF, reqid := 0, colour := 0,
    relayed := false, srcBlock := 0, epoch := s.glb.epoch, noPort := true }

/-- Hands a wired event to its slice (R68, Table 15-8 event 0x72). -/
def presentWired (n : Nat) (kind : BitVec 4) (count : Nat) (s : State) : State :=
  perf 0 0x72 (enqueue 16 (wiredMsg s n kind count) s)

/-- WIRED_PRESENTATION: what the input's latch or sampler holds goes to the owning slice, once it is awake (R68–R71). A FATAL block takes
none (R203). -/
def doWiredPresentation (n : Nat) (s : State) : State :=
  let sl := dSlc (sliceOf (BitVec.ofNat 18 n))
  if !accepting s || s.log.fatal then s
  else if edgeSelected s n then
    if s.edge n = 0 then s
    else if !domOn s sl then wake sl s
    else presentWired n kAssert (s.edge n) (s.setEdge n 0)
  else if srcMode (srcNow s n) = 1 then
    match (s.sampler n).out with
    | none => s
    | some l =>
      if !domOn s sl then wake sl s
      else presentWired n (if l then kLevelHi else kLevelLo) 1 (s.setSampler n { s.sampler n with presented := l, out := none })
  else s

def execWiredPresentation (n : Fin 1024) (s : State) : Host.Outcome State Fault Refusal :=
  .next (s.run (doWiredPresentation n.val))

end Sys2Proof.Machine
end

