-- ==== Sys2Proof/Machine/Ranking.lean ====
section
/-! DEFINITION. The commands of ranking, level queues, arbitration and launch (files 06, 07, 08). -/

namespace Sys2Proof.Machine

/-- Ranking and DLV work: outside pending scan, not FATAL, running (R119, R293, R308). -/
def ranking (s : State) : Bool := s.glb.ranking && !s.log.fatal && accepting s && domOn s dDlv

/-- What a step of DLV may set free: records for open gather windows, FENCEs that wait for room, handshakes that wait for a FENCE, mailbox
commands that wait. -/
def afterDlv (s : State) : State := settleMbx (serveDips (fencesGo (joinWindows s)))

/-- SELECT: up to four winners of one handshake of the slice's tree (R114). -/
def doSelect (slice : Nat) (s : State) : State :=
  if ranking s && domOn s (dSlc slice) then
    selectUp slice 4 0 (if (bestOf s slice).isSome then perfUnit (dSlc slice) 1 s else s)
  else s

def execSelect (slice : Fin 8) (s : State) : Host.Outcome State Fault Refusal := .next (s.run (doSelect slice.val))

/-- LEVEL_QUEUE_ENTRY: the request on the way to the level's queue enters it, waits for a token, or is returned (R113, R143, R157). Behind a
full pacer stage only a request with a guarantee token enters. -/
def doLevelQueueEntry (l : Nat) (s : State) : State :=
  if ranking s then
    let s1 := fenceRequests s
    match nextEntry l s1 with
    | some q => afterDlv (enterReq q (s1.setSelQ l ((s1.selQ l).erase q)))
    | none => s1
  else s

def execLevelQueueEntry (lvl : Fin 16) (s : State) : Host.Outcome State Fault Refusal :=
  .next (s.run (doLevelQueueEntry lvl.val))

/-- Waiting requests of a level whose half has lost its space are returned. -/
def returnPaced (l : Nat) (s : State) : State :=
  let gone := (s.paceQ l).filter (pacedLost s)
  gone.foldl (fun s q => returnReq q s) (s.setPaceQ l ((s.paceQ l).filter fun q => !pacedLost s q))

/-- PACER_TOKEN_TAKEN: the first request of the stage that a token has come for goes on (R157). -/
def doPacerTokenTaken (l : Nat) (s : State) : State :=
  if ranking s then
    let s1 := returnPaced l s
    match findPaced s1 [] (s1.paceQ l) with
    | some (q, r, rest, t) => afterDlv (leavePace q r (t.setPaceQ l rest))
    | none => afterDlv s1
  else s

def execPacerTokenTaken (lvl : Fin 16) (s : State) : Host.Outcome State Fault Refusal :=
  .next (s.run (doPacerTokenTaken lvl.val))

/-- ARBITER_DECISION: the channel grants the oldest request at its highest input, or every NTH time the oldest of all (R136, R137). -/
def doArbiterDecision (ch : Nat) (s : State) : State :=
  if mayGrant s ch then
    let l := cands s ch
    let nth := decide (s.dlv.nth.toNat ≤ s.grantCount ch + 1)
    match winner s nth l with
    | some w => decideFor ch l w nth s
    | none => s
  else s

def execArbiterDecision (ch : Fin 4) (s : State) : Host.Outcome State Fault Refusal := .next (s.run (doArbiterDecision ch.val))

/-- Closes the first open gather window of a list, after joining what has come. -/
def closeGather (s : State) : List Grant → List Grant × State
  | [] => ([], s)
  | .recs r qs n true ep ent :: rest =>
    let p := gatherMore r.toNat n ep qs s
    (.recs r p.1 n false ep ent :: rest, p.2)
  | g :: rest => (g :: (closeGather s rest).1, (closeGather s rest).2)

/-- GATHER_WINDOW_END: the window ends, and the write takes the records that have come (R56, R141). -/
def doGatherWindowEnd (ch : Nat) (s : State) : State :=
  let p := closeGather s (s.grants ch)
  p.2.setGrants ch p.1

def execGatherWindowEnd (ch : Fin 4) (s : State) : Host.Outcome State Fault Refusal := .next (s.run (doGatherWindowEnd ch.val))

/-- WITHDRAW_SETTLE: the withdraw meets its request and wins, unless a member record has launched (R117, R118, R144). -/
def doWithdrawSettle (k : Nat) (s : State) : State := if applying s then afterDlv (settleWithdraw k s) else s

def execWithdrawSettle (src : BitVec 18) (s : State) : Host.Outcome State Fault Refusal :=
  .next (s.run (doWithdrawSettle src.toNat))

/-- The first grant of a channel, taken. -/
def launchOne (ch : Nat) (g : Grant) (tag : BitVec 12) (s : State) : State :=
  match g with
  | .recs r qs n _ _ ent => launchGrant ch r.toNat qs n ent tag s
  | .own o => launchOwn ch o tag s

/-- LAUNCH: the channel's granted write launches, or becomes a dead slot (R140). FATAL launches nothing (R293). -/
def doLaunch (ch : Nat) (s : State) : State :=
  match s.grants ch with
  | [] => s
  | g :: rest =>
    if s.log.fatal || !applying s || !domOn s dDlv || gathering g then s
    else if cryWait s g then wake dCry s
    else
      match freeTag s ch with
      | none => s
      | some tag => afterDlv (launchOne ch g tag (s.setGrants ch rest))

def execLaunch (ch : Fin 4) (s : State) : Host.Outcome State Fault Refusal := .next (s.run (doLaunch ch.val))

/-- RELAY_STAGE_GRANT: the level's head leaves for the relay stage, and its slot freezes (R238). -/
def doRelayStageGrant (l : Nat) (s : State) : State := if ranking s then toStage l s else s

def execRelayStageGrant (lvl : Fin 16) (s : State) : Host.Outcome State Fault Refusal :=
  .next (s.run (doRelayStageGrant lvl.val))

/-! ### Completions (R29, R30, R146, R290) -/

/-- A tag is free again, and a notification that waited for one launches (R30). -/
def freeOutst (ch tag : Nat) (s : State) : State := drainNote ch (s.setOutst ch tag none)

/-- The log entry whose copy `no` has completed OK: an acknowledged one, or a summary, is freed (R286, R287). -/
def copyDone (e no : Nat) (s : State) : State :=
  match s.logEnt e with
  | some x =>
    if x.copyNo = no then
      if x.acked || decide (x.form = 0xF) then s.setLogEnt e none else s.setLogEnt e (some { x with copyOk := true })
    else s
  | none => s

/-- DETAIL of WRITE_ERR (Table 16-3). -/
def writeErrDetail (w : Outst) (ch : Nat) (tag : BitVec 12) (status : BitVec 3) (timeout : Bool) : BitVec 256 :=
  (w.addr.setWidth 256) ||| ((tag.setWidth 256) <<< 64) ||| ((status.setWidth 256) <<< 76) ||| ((w.cls.setWidth 256) <<< 79) |||
    ((BitVec.ofNat 256 ch) <<< 82) ||| (((b1 timeout).setWidth 256) <<< 84)

/-- The target of a write is FAULTED already, or became so after its launch: nothing more happens (Table 2-5, R146). -/
def targetDown (s : State) (w : Outst) : Bool :=
  match w.target with
  | .ring r => w.stale || (s.half r.toNat).faulted
  | .ledger t => (s.ledgerAt t.toNat).faulted
  | .logEntry _ _ | .logOther => s.log.faulted
  | .snapshot => false

/-- Unit of a WRITE_ERR; a snapshot's is the ledger of the fabric manager (log entry 23). -/
def targetUnit (t : WTarget) : ErrUnit :=
  match t with
  | .ring r => uRing r
  | .ledger l => uLedger l
  | .logEntry _ _ | .logOther => uErrRing
  | .snapshot => uLedger 0

/-- What a failed write marks (Table 2-5). -/
def markTarget (t : WTarget) (s : State) : State := ownFault t s

/-- A write failed: ERR, PORT_RESET, a reserved status, or no completion within 1 ms (Table 2-5). -/
def writeFailed (w : Outst) (ch : Nat) (tag : BitVec 12) (status : BitVec 3) (timeout : Bool) (s : State) : State :=
  let s1 := lostCopy w.target s
  if targetDown s1 w then s1
  else logKind .writeErr (targetUnit w.target) (writeErrDetail w ch tag status timeout) (markTarget w.target s1)

/-- A completion word that is good and names an outstanding write. -/
def completed (ch : Nat) (cpl : BitVec 16) (w : Outst) (s : State) : State :=
  let s1 := freeOutst ch (cplTag cpl).toNat s
  if w.late then s1
  else if cplStatus cpl = 0 then
    match w.target with
    | .logEntry e no => copyDone e no s1
    | _ => s1
  else writeFailed w ch (cplTag cpl) (cplStatus cpl) false (perf dDlv 0x39 s1)

/-- A completion is counted as bad (Table 2-5). -/
def cplBad (s : State) : State := bump (dlvPage + 0x0D0) s

/-- WCH_COMPLETION (R29, R30, Table 2-5). -/
def doWchCompletion (ch : Nat) (cpl : BitVec 16) (s : State) : State :=
  if !accepting s then s
  else if !cplParityOk cpl then portParity (pWch ch) (cplBad s)
  else
    match s.outst ch (cplTag cpl).toNat with
    | some w => afterDlv (completed ch cpl w s)
    | none => cplBad s

def execWchCompletion (ch : Fin 4) (cpl : BitVec 16) (s : State) : Host.Outcome State Fault Refusal :=
  .next (s.run (doWchCompletion ch.val cpl))

/-- WRITE_TIMEOUT: no completion within 1 ms of the time port; the tag stays taken (R29, R30). -/
def doWriteTimeout (ch : Nat) (tag : BitVec 12) (s : State) : State :=
  match s.outst ch tag.toNat with
  | some w =>
    if w.late || !decide (w.time.toNat + 1000000 ≤ s.glb.now.toNat) || !applying s then s
    else afterDlv (writeFailed w ch tag 0 true (s.setOutst ch tag.toNat (some { w with late := true })))
  | none => s

def execWriteTimeout (ch : Fin 4) (tag : BitVec 12) (s : State) : Host.Outcome State Fault Refusal :=
  .next (s.run (doWriteTimeout ch.val tag))

end Sys2Proof.Machine
end

