-- ==== Sys2Proof/Machine/Pacer.lean ====
section
/-! DEFINITION. The pacer's rates and buckets, and the minute's Tickets, as shared operations (files 08, 15). -/

namespace Sys2Proof.Machine

/-! ### Rates (R156, R159–R161) -/

/-- C of R159 for the profile in force. -/
def ceilNow (s : State) : Nat := ceilOf s s.glb.prfActive

/-- Halves with a guarantee. -/
def bucketHalves (s : State) : List Nat := (s.dlv.ring.map Prod.fst).filter fun r => ringGuar (ringNow s r) ≠ 0

/-- Healthy halves with a guarantee. -/
def guarHalves (s : State) : List Nat := (bucketHalves s).filter fun r => healthy s r

/-- Sum of GUAR over a list of halves. -/
def guarOf (s : State) (l : List Nat) : Nat := (l.map fun r => (ringGuar (ringNow s r)).toNat).sum

/-- The healthy halves of a guarantee band. -/
def bandHalves (s : State) (b : Nat) : List Nat := (guarHalves s).filter fun r => (ringBand (ringNow s r)).toNat = b

/-- The ceiling is below C. -/
def paceCut (s : State) : Bool := decide (s.dlv.ceil < 16 * ceilNow s)

/-- The bands are served under R161: the ceiling is cut, or the guarantees exceed it (R62). -/
def bandsServed (s : State) : Bool := paceCut s || decide (s.dlv.ceil < 16 * guarOf s (guarHalves s))

/-- The pool's base rate F, in units of 1/64 M record/s. -/
def poolFloor (s : State) : Nat := min (64 * s.dlv.floor.toNat) s.dlv.ceil

/-- What remains for band `b` and those below, bands 3 to `b` + 1 served first: E − F less their guarantees, in 1/64 M record/s. -/
def bandRest (s : State) (b : Nat) : Nat :=
  [3, 2, 1, 0].foldl (fun rest c => if b < c then rest - 64 * guarOf s (bandHalves s c) else rest) (4 * s.dlv.ceil - poolFloor s)

/-- Band `b` receives less than its guarantees. -/
def bandCut (s : State) (b : Nat) : Bool := bandsServed s && decide (bandRest s b < 64 * guarOf s (bandHalves s b))

/-- The highest band in BAND_CUT. -/
def topCut (s : State) : Option Nat := [3, 2, 1, 0].find? fun b => bandCut s b

/-- FRAC: the share granted to the highest band cut, in 1/256 (Table 8-6). -/
def fracOf (s : State) : Nat :=
  match topCut s with
  | some b => 256 * bandRest s b / (64 * guarOf s (bandHalves s b))
  | none => 0

/-- What half `r`'s guarantee bucket receives in `ns` nanoseconds, in millionths of a record. -/
def guarFill (s : State) (r ns : Nat) : Nat :=
  let e := ringNow s r
  let b := (ringBand e).toNat
  let g := (ringGuar e).toNat
  if bandCut s b then g * bandRest s b * 1000 * ns / (64 * guarOf s (bandHalves s b)) else g * 1000 * ns

/-- What the pool bucket receives beyond spill. -/
def poolFill (s : State) (ns : Nat) : Nat :=
  let full := (guarHalves s).map fun r => guarFill s r ns
  s.dlv.ceil * 1000 * ns / 16 - full.sum

/-- Fills half `r`'s bucket and answers the spill; that of a half which is not healthy is lost, since its guarantee is in the pool's rate
already (log entry 50). -/
def fillHalf (r amount : Nat) (p : Nat × State) : Nat × State :=
  let v := p.2.bucket r + amount
  (if healthy p.2 r then p.1 + (v - 64000000) else p.1, p.2.setBucket r (min v 64000000))

/-- Every bucket is filled for `ns` nanoseconds; a full guarantee bucket spills into the pool, whose cap is 1,024 records (R156). -/
def fillBuckets (ns : Nat) (s : State) : State :=
  let p := (bucketHalves s).foldl (fun p r => fillHalf r (guarFill s r ns) p) (0, s)
  p.2.upDlv fun d => { d with poolBucket := min (d.poolBucket + poolFill s ns + p.1) 1024000000 }

/-- Every bucket full (R155). -/
def fullBuckets (s : State) : State :=
  (s.dlv.ring.foldl (fun s p => s.setBucket p.1 64000000) s).upDlv fun d => { d with poolBucket := 1024000000 }

/-! ### Tickets (R272, R278) -/

/-- A tally with a nonzero count. -/
def tallyUsed (y : Tally) : Bool :=
  decide (y.accepted ≠ 0) || decide (y.folded ≠ 0) || decide (y.delivered ≠ 0) || decide (y.notify ≠ 0) || decide (y.viol ≠ 0) ||
    decide (y.wsum ≠ 0)

/-- The tenant gets a Ticket: tenant 0, a granule, a ring or a nonzero count. -/
def ticketDue (s : State) (t : Nat) : Bool :=
  decide (t = 0) || decide (granulesOf s (BitVec.ofNat 8 t) ≠ []) || decide (ringsOf s (BitVec.ofNat 8 t) ≠ []) || tallyUsed (s.tallyAt t)

/-- Some enabled ledger that the tenant's Ticket goes to is FULL or FAULTED. -/
def ticketBlocked (s : State) (t : Nat) : Bool := (ledgersOf t).any fun l => ledgerBlocked (s.ledgerAt l)

/-- Puts a Ticket into each of the tenant's ledgers. -/
def putTicket (t : Nat) (w : Ticket) (s : State) : State := (ledgersOf t).foldl (fun s l => ledgerPut l w s) s

/-- The Ticket of tenant `t` at boundary `b`, or a carry (R272). -/
def minuteTicket (b : BitVec 64) (t : Nat) (s : State) : State :=
  if !ticketDue s t then s
  else if ticketBlocked s t then s.setTally t { s.tallyAt t with carry := (s.tallyAt t).carry + 1 }
  else
    let w := ticketOf s (BitVec.ofNat 8 t) false (BitVec.ofNat 32 (b.toNat / minuteNs - 1)) (s.tly.minutes - (s.tallyAt t).span) b
    tallyClear t (sendCkpt w (putTicket t w (countTags t s)))

/-- After a takeover, each checkpoint of the partner goes into its tenant's ledgers with PARTNER 1, and is discarded (R278). -/
def writeCkpt (t : Nat) (s : State) : State :=
  match s.ckpt t with
  | some w => if ticketBlocked s t then s else (putTicket t (w.set 0 (setFld (w.getD 0 0) 22 1#1)) s).setCkpt t none
  | none => s

/-- Every checkpoint that is to be written. -/
def writeCkpts (s : State) : State :=
  if s.twin.ckptWrite then
    let s1 := (List.range 256).foldl (fun s t => writeCkpt t s) s
    s1.upTwin fun w => { w with ckptWrite := decide (w.ckpt ≠ []) }
  else s

/-- The boundary `b`: waiting FINAL Tickets, the partner's checkpoints, then the Tickets in ascending order of tenant; the weights
written since take effect (R270, R272, R278, R279). -/
def minuteTickets (b : BitVec 64) (s : State) : State :=
  let s1 := (List.range 256).foldl (fun s t => minuteTicket b t s) (writeCkpts (drainFinals s))
  s1.upTly fun y => { y with weightNow := y.weight, minuteDue := none }

/-! ### Snapshots (R282) -/

/-- Some write of a snapshot is outstanding, waiting or granted. -/
def snapBusy (s : State) : Bool :=
  (s.dlv.own.any fun o => o.target = .snapshot) ||
    ((s.grants 0).any fun g => match g with | .own o => o.target = .snapshot | .recs _ _ _ _ _ _ => false) ||
    s.dlv.outst.any fun p => match p.2 with | some w => w.target = .snapshot && !w.late | none => false

/-- Counter word `i` of a snapshot page (Table 15-9). -/
def snapWord (s : State) (seq : BitVec 64) (i : Nat) : Reg64 :=
  let c := s.pctr i
  at64 c.count 0 ||| at64 (b1 c.wrap) 48 ||| at64 (fld seq 0 15) 49

/-- The 64 bytes number `j` of the page. -/
def snapData (s : State) (seq : BitVec 64) (j : Nat) : BitVec 512 :=
  if j = 0 then dataOf (two seq ++ two s.glb.now ++ [s.ctr.snapInt])
  else dataOf ((List.range 8).flatMap fun k => two (snapWord s seq (8 * (j - 1) + k)))

/-- Nanoseconds of the snapshot interval; 1 to 9 µs act as 10. -/
def snapNs (i : DW) : BitVec 64 := BitVec.ofNat 64 (1000 * max 10 i.toNat)

/-- Captures all counters and queues the page's 31 writes. -/
def snapshot (s : State) : State :=
  let seq := s.ctr.snapSeq + 1
  let s1 := (List.range 31).foldl
    (fun t j => pushOwn 4 .snapshot (s.ctr.snapAddr + BitVec.ofNat 64 (64 * j)) (snapData s seq j) 0 t) s
  s1.upCtr fun c => { c with snapSeq := seq }

end Sys2Proof.Machine
end

