-- ==== Sys2Proof/Machine/Time.lean ====
section
/-! DEFINITION. The commands of the time port and of what it drives (files 02, 03, 08, 15, 16). -/

namespace Sys2Proof.Machine

/-! ### The time port (R36, R154–R156, R271) -/

/-- GLB_TIME_BACKSTEP's offset. -/
def backstepOff : Nat := 0x68

/-- µs of the time port while powered, event 0x03 of every domain that is on (Table 15-8). -/
def countMicros (old new : BitVec 64) (s : State) : State :=
  (List.range 30).foldl (fun s d => if domOn s d then perfBy d 0x03 (new.toNat / 1000 - old.toNat / 1000) s else s) s

/-- Channels without a free completion tag have spent `ns` of the period so (R160). -/
def countStarved (ns : Nat) (s : State) : State :=
  (List.range 4).foldl (fun s c => if (freeTag s c).isNone then s.setStarved c (s.starved c + ns) else s) s

/-- A minute boundary (R271): the first timestamp after cold start makes none. -/
def noteMinute (old v : BitVec 64) (s : State) : State :=
  let n := v.toNat / minuteNs - old.toNat / minuteNs
  if n = 0 ∨ s.glb.ticks = 0 then s else s.upTly fun y => { y with minuteDue := some v, minutes := y.minutes + n }

/-- The first timestamp after a stall: hold-off from COUNT 0 with no soak, every bucket full (R155). Where the pacer's periods start again is
not said: the model starts a fresh period, with nothing counted in it, at that timestamp (DESIGN CHOICE, log entry 126). -/
def endStall (s : State) : State :=
  if s.glb.stalled then
    (fullBuckets s).upDlv fun d => { d with grun := [], periodStart := s.glb.now, periodRecs := 0, starved := [] }
  else s

/-- Since when the half of each bundle in the inbox has not been healthy (R240). -/
def markInbox (s : State) : State :=
  s.upRelay fun y =>
    { y with inbox := y.inbox.map fun b =>
        { b with badSince := if healthy s b.ring.toNat then none else some (b.badSince.getD s.glb.now) } }

/-- An accepted timestamp. -/
def acceptTime (v : BitVec 64) (s : State) : State :=
  let old := s.glb.now
  let first := decide (s.glb.ticks = 0)
  let s1 := if s.glb.stalled || first then s else countStarved (v.toNat - old.toNat) (fillBuckets (v.toNat - old.toNat) s)
  let s2 := noteMinute old v (if first then s1 else countMicros old v s1)
  let s3 := endStall (s2.upGlb fun g => { g with now := v, ticks := g.ticks + 1 })
  markInbox (perf 0 0x71 (s3.upGlb fun g => { g with stalled := false }))

/-- TIME_PORT_VALUE: accepted, ignored and counted as a backstep, or ignored for parity (R20, R36). -/
def doTimePortValue (v : BitVec 64) (p : BitVec 4) (s : State) : State :=
  if !accepting s then s
  else if groupParity v 4 ≠ p then portParity pTime s
  else if v.toNat < s.glb.now.toNat then bump backstepOff s
  else acceptTime v s

def execTimePortValue (v : BitVec 64) (p : BitVec 4) (s : State) : Host.Outcome State Fault Refusal :=
  .next (s.run (doTimePortValue v p))

/-- Groups that soak. -/
def soakGroups (s : State) : List Nat := (s.dlv.grun.filter fun p => p.2.soaking).map Prod.fst

/-- TIME_STALL: STALLED and STALL rise, STALLS counts, a CE is logged, and every soak ends (R153, R154). -/
def doTimeStall (s : State) : State :=
  if s.glb.stalled || !applying s then s
  else
    let s1 := s.upGlb fun g => { g with stalled := true, stalls := g.stalls + 1 }
    let s2 := (soakGroups s1).foldl (fun s g => soakFinish g s) (setStallFlag s1 (stallFlag s1).hwSet)
    logCEKind .timeStall (uPort pTime) 0 s2

def execTimeStall (s : State) : Host.Outcome State Fault Refusal := .next (s.run doTimeStall)

/-- SOAK_END: at an accepted timestamp at or after END (R149). -/
def doSoakEnd (g : Nat) (s : State) : State :=
  let r := s.grun g
  if r.soaking && decide (r.endAt.toNat ≤ s.glb.now.toNat) && decide (r.since < s.glb.ticks) then soakFinish g s else s

def execSoakEnd (g : Fin 4096) (s : State) : Host.Outcome State Fault Refusal := .next (s.run (doSoakEnd g.val))

/-! ### The pacer's period (R160, R162) -/

/-- A period is short: some channel spent more than 1 µs of it without a free tag, or with one and a write unacknowledged; `u` gives the
second time. -/
def periodShort (s : State) (u : List (BitVec 32)) : Bool :=
  (List.range 4).any fun c => decide (1000 < (u.getD c 0).toNat + s.starved c)

/-- The ceiling after `n` periods, never above C: the rate of the records launched in them, or `n` rises of C/16. -/
def nextCeil (s : State) (short : Bool) (n : Nat) : Nat :=
  if short then min (s.dlv.periodRecs / n) (16 * ceilNow s) else min (s.dlv.ceil + n * ceilNow s) (16 * ceilNow s)

/-- Tenants with a half in a cut band. -/
def cutTenants (s : State) : List Nat :=
  (guarHalves s).foldl
    (fun l r => if bandCut s (ringBand (ringNow s r)).toNat then addRange (ringTen (ringNow s r)).toNat l else l) []

/-- A shortfall begins (R162). -/
def beginShort (s : State) : State :=
  let s1 := logCEKind .guarShort uPacer 0 (bump (dlvPage + 0x0E8) (setShortFlag s (shortFlag s).hwSet))
  (cutTenants s1).foldl (fun s t => bump (tenPage t + 0x868) s) s1

/-- PACER_PERIOD_END: the arguments say how long, in ns of the period, each channel held a write unacknowledged while it had a free
completion tag (R160); the time without one is counted at each timestamp. Where the row comes late or time jumps, the `n` periods that have
passed are judged as one, over their whole length (DESIGN CHOICE, log entry 127). -/
def doPacerPeriodEnd (u : List (BitVec 32)) (s : State) : State :=
  if s.glb.stalled || !accepting s || !decide (s.dlv.periodStart.toNat + 16000 ≤ s.glb.now.toNat) then s
  else
    let short := periodShort s u
    let begins := short && !s.dlv.lastShort
    let n := (s.glb.now.toNat - s.dlv.periodStart.toNat) / 16000
    let s1 := s.upDlv fun d =>
      { d with ceil := nextCeil s short n, lastShort := short, periodRecs := 0, starved := [],
               periodStart := d.periodStart + BitVec.ofNat 64 (16000 * n) }
    if begins then beginShort s1 else s1

def execPacerPeriodEnd (u0 u1 u2 u3 : BitVec 32) (s : State) : Host.Outcome State Fault Refusal :=
  .next (s.run (doPacerPeriodEnd [u0, u1, u2, u3]))

/-! ### Minute, snapshots, leases -/

/-- MINUTE_BOUNDARY: the Tickets of the boundary that the time port has passed (R271, R272). -/
def doMinuteBoundary (s : State) : State :=
  match s.tly.minuteDue with
  | some b => if s.glb.stalled then s else minuteTickets b s
  | none => s

def execMinuteBoundary (s : State) : Host.Outcome State Fault Refusal := .next (s.run doMinuteBoundary)

/-- COUNTER_SNAPSHOT_CAPTURE: at each interval, unless the previous snapshot's writes are outstanding (R282). -/
def doCounterSnapshotCapture (s : State) : State :=
  if s.ctr.snapStopped || decide (s.ctr.snapInt = 0) || s.glb.stalled || s.log.fatal || !accepting s ||
      !decide (s.ctr.snapNext.toNat ≤ s.glb.now.toNat) then s
  else
    let s1 := s.upCtr fun c => { c with snapNext := s.glb.now + snapNs c.snapInt }
    if snapBusy s then s1 else snapshot s1

def execCounterSnapshotCapture (s : State) : Host.Outcome State Fault Refusal := .next (s.run doCounterSnapshotCapture)

/-- A HELD Tack becomes BROKEN with a cause; the lease stops (R297). -/
def breakTack (n : Nat) (cause : BitVec 2) (s : State) : State :=
  let t := s.tackAt n
  if t.st = .held then s.setTack n { t with st := .broken, cause, endAt := none } else s

/-- TACK_LEASE_EXPIRY: the lease has passed without renewal (R297). -/
def doTackLeaseExpiry (n : Nat) (s : State) : State :=
  match (s.tackAt n).endAt with
  | some e => if !s.glb.stalled && decide (e.toNat ≤ s.glb.now.toNat) then breakTack n 2 s else s
  | none => s

def execTackLeaseExpiry (n : Fin 1024) (s : State) : Host.Outcome State Fault Refusal :=
  .next (s.run (doTackLeaseExpiry n.val))

/-! ### Idle gating (R58, R300) -/

/-- A domain's request falls, and its logic stops. -/
def gateOff (d : Nat) (s : State) : State :=
  s.upPwr fun p => { p with on := p.on &&& ~~~(1#30 <<< d), req := p.req &&& ~~~(1#30 <<< d) }

/-- FRUGAL is in force and no change of profile runs. -/
def frugal (s : State) : Bool := decide (s.glb.prfActive = pFrugal) && !s.glb.prfBusy && accepting s && !s.glb.stalled

/-- 5 µs of the time port have passed since `t`. -/
def idleSince (s : State) (t : BitVec 64) : Bool := decide (t.toNat + 5000 ≤ s.glb.now.toNat)

/-- No source of the slice is PENDING, HELD, ISSUED or ACTIVE_PENDING, and none has a withdraw outstanding. -/
def sliceQuiet (s : State) (sl : Nat) : Bool :=
  s.slc.dyn.all fun p => sliceOf (BitVec.ofNat 18 p.1) ≠ sl || (!pendBit p.2.st && p.2.withdraw.isNone)

/-- No message waits for the slice, and no merge of its sources is outstanding. -/
def sliceUnused (s : State) (sl : Nat) : Bool :=
  ((List.range 17).all fun o => (s.queue (8 * o + sl)).isEmpty) &&
    s.slc.shadow.all fun p => sliceOf (BitVec.ofNat 18 p.1) ≠ sl || p.2.isNone

/-- The DIP has nothing in its Folder, its queues or at its pins. -/
def dipQuiet (s : State) (n : Nat) : Bool :=
  (s.folder n).isEmpty && (s.heldL n).isEmpty && (List.range 8).all fun sl => (s.queue (8 * n + sl)).isEmpty

/-- DIP_IDLE_GATE: DIP4 to DIP15 only; not while a gate update needs the DIP (R58, R301). -/
def doDipIdleGate (n : Nat) (s : State) : State :=
  if frugal s && decide (4 ≤ n) && domOn s (dDip n) && dipQuiet s n && !updateAhead s && idleSince s (Tbl.get zeroD s.intake.lastHandshake n) then
    gateOff (dDip n) s
  else s

def execDipIdleGate (dip : Fin 16) (s : State) : Host.Outcome State Fault Refusal := .next (s.run (doDipIdleGate dip.val))

/-- Some key is loaded: a record key or a ledger key (R257, R275). -/
def keyLoaded (s : State) : Bool := (s.fw.recKey.any fun p => p.2.isSome) || s.fw.ledKey.any fun p => p.2.isSome

/-- Twifomon asks for CRY: an SPDM message runs, or a write waits for it. -/
def cryAsked (s : State) : Bool :=
  (s.mbx.any fun p => match p.2.cmd with | some c => c.opcode = 0x0800 | none => false) ||
    (List.range 4).any fun c => (s.grants c).any fun g => match g with | .recs r qs _ _ _ _ => (s.half r.toNat).rsize32 && qs ≠ [] | .own _ => false

/-- CRY_IDLE_RELEASE: 100 µs without a key or a request (Table 17-1). -/
def doCryIdleRelease (s : State) : State :=
  if domOn s dCry && !keyLoaded s && !cryAsked s && !s.glb.stalled && decide (s.fw.cryIdle.toNat + 100000 ≤ s.glb.now.toNat) then
    gateOff dCry s
  else s

def execCryIdleRelease (s : State) : Host.Outcome State Fault Refusal := .next (s.run doCryIdleRelease)

end Sys2Proof.Machine
end

