-- ==== Sys2Proof/Machine/SeamOps.lean ====
section
/-! DEFINITION. The link layer of Seam-T and Seam-R as shared operations: states, credits, control flits, training, what a flit delivers
(file 12). -/

namespace Sys2Proof.Machine

/-! ### Links, counters and log (R224, R233) -/

/-- Counter page of a link. -/
def linkPage (l : Seam) : Nat := match l with | .twin => smtPage | .relay _ _ => smrPage

/-- Domain of a link. -/
def linkDom (l : Seam) : Nat := match l with | .twin => dSmt | .relay _ _ => dSmr

/-- Unit of a link (Table 16-1). -/
def linkUnit (s : State) (l : Seam) : ErrUnit :=
  match l with
  | .twin => uLink false (!strapB s) (ownBlk s)
  | .relay b st => uLink true st b

/-- A CE of a link. -/
def linkCE (k : ErrKind) (l : Seam) (s : State) : State := logCEKind k (linkUnit s l) 0 s

/-- The link, read and replaced. -/
def lk (s : State) (l : Seam) : Link := s.linkAt (linkKey l)
def setLk (l : Seam) (v : Link) (s : State) : State := s.setLink (linkKey l) v

/-- Buffers in flits, REQ then RSP (R221). -/
def bufReq (l : Seam) : Nat := match l with | .twin => 192 | .relay _ _ => 12
def bufRsp (l : Seam) : Nat := match l with | .twin => 64 | .relay _ _ => 4

/-- Numbers in a receive window (R218, R229). -/
def windowOf (l : Seam) : Nat := match l with | .twin => 64 | .relay _ _ => 16

/-- Replay flits that a link may hold: Seam-T 256; the Seam-R sessions share 256, one of them at most 64 (R217, R229). -/
def replayRoom (s : State) (l : Seam) : Bool :=
  match l with
  | .twin => decide ((lk s l).replay.length < 256)
  | .relay _ _ =>
    decide ((lk s l).replay.length < 64) &&
      decide ((s.link.foldl (fun n p => if p.1 = 0 then n else n + p.2.replay.length) 0) < 256)

/-- A link that is training, for the first time or again. -/
def isTraining (x : LinkState) : Bool :=
  match x with
  | .training | .retrain | .grace => true
  | .down | .up => false

/-! ### Control payloads (Tables 12-4 and 12-6) -/

/-- Seam sequence just before `n`. -/
def seqBefore (n : BitVec 12) : BitVec 12 := n - 1

/-- The cumulative acknowledgement: the last number below which nothing is missing (R219). -/
def ackOf (x : Link) : BitVec 12 :=
  match x.holes with
  | [] => seqBefore x.exp
  | h :: r => seqBefore (r.foldl (fun m k => if (k - x.exp).toNat < (m - x.exp).toNat then k else m) h)

/-- RESUME as this side sends it: 1 while a session is kept (R223, R224). -/
def ownResume (x : Link) : Bool := decide (x.st = .retrain) || decide (x.st = .grace)

/-- A TRAIN payload (Table 12-4). -/
def trainPayload (s : State) (l : Seam) (ack : Bool) : BitVec 960 :=
  let x := lk s l
  payloadOf
    [0x06, 0x5E17,
      at32 (ownBlk s) 0 ||| at32 (b1 (strapB s)) 11 ||| at32 (b1 (ownResume x)) 12 ||| at32 (b1 ack) 13 ||| at32 (b1 (x.st = .retrain)) 14,
      at32 x.ackSent 0, at32 (BitVec.ofNat 16 (bufReq l)) 0 ||| at32 (BitVec.ofNat 16 (bufRsp l)) 16, 0x01]

def nakPayload (n : BitVec 12) : BitVec 960 := payloadOf [0x01, at32 n 0]
def darnPayload (x : Link) : BitVec 960 := payloadOf [0x03, x.grantReq, x.grantRsp]
def laneDropPayload (set : Byte) : BitVec 960 := payloadOf [0x04, at32 set 0]
def laneAddPayload (set : Byte) : BitVec 960 := payloadOf [0x05, at32 set 0]
def closePayload : BitVec 960 := payloadOf [0x07]

/-- Pair state codes (Table 11-1). -/
def pairCode : Pair → BitVec 3
  | .training => 0 | .paired => 1 | .degraded => 2 | .alone => 3 | .solo => 4 | .rewash => 5

/-- The own heartbeat. -/
def heartbeatPayload (s : State) : BitVec 960 :=
  payloadOf
    [0x02,
      at32 (pairCode s.twin.state) 0 ||| at32 (b1 s.fw.prepared.isSome) 3 ||| at32 (b1 s.twin.lease) 4 ||| at32 (b1 s.log.fatal) 5 |||
        at32 (b1 (s.fw.phase = .halted)) 6,
      at32 s.glb.epoch 0]

/-- DW `i` of a payload. -/
def payDw (p : BitVec 960) (i : Nat) : DW := fld p (32 * i) 32

/-- A heartbeat as received. -/
def heartbeatOf (p : BitVec 960) : Heartbeat :=
  let w := payDw p 1
  { state := fld w 0 3, prepared := bitAt w 3, lease := bitAt w 4, fatal := bitAt w 5, fwHalted := bitAt w 6, epoch := fld (payDw p 2) 0 16 }

/-- Queues a link control flit. -/
def queueCtl (l : Seam) (p : BitVec 960) (s : State) : State := setLk l { lk s l with ctl := (lk s l).ctl ++ [p] } s

/-! ### Lanes (R226–R228) -/

/-- Fitted lanes (Table 2-9). -/
def fitted (s : State) : Byte := BitVec.ofNat 8 (2 ^ s.pwr.straps.lanes.toNat - 1)

/-- Lanes permitted by LANE_MASK. -/
def permitted (s : State) : Byte := fitted s &&& fld s.twin.laneCfg 16 8

/-- THRESH and QUIET of SMT_LANE_CFG. -/
def laneThresh (s : State) : Nat := (fld s.twin.laneCfg 0 8).toNat

/-- Numbers of the lanes of a set, ascending. -/
def lanesOf (set : Byte) : List Nat := (List.range 8).filter fun n => bitAt set n

/-- One lane as a set. -/
def laneBit (n : Nat) : Byte := 1#8 <<< n

/-- A lane word with its check (Table 12-7). -/
def laneWordOf (wtype : BitVec 4) (round : BitVec 4) (data : BitVec 256) : BitVec 272 :=
  let w : BitVec 272 := (wtype.setWidth 272) ||| ((round.setWidth 272) <<< 4) ||| ((data.setWidth 272) <<< 16)
  w ||| (((laneCheck w).setWidth 272) <<< 8)

/-- The training word of lane `n` (R226): marker, lane, own ready set, deskewed. -/
def trainingWord (s : State) (n : Nat) : BitVec 272 :=
  laneWordOf 2 s.twin.round
    ((0x5E17#256) ||| ((BitVec.ofNat 256 n) <<< 16) ||| (((s.twin.lnRdy).setWidth 256) <<< 19) |||
      (((b1 (bitAt s.twin.deskewed n)).setWidth 256) <<< 27))

/-- The lane marker for a new active set. -/
def markerWord (s : State) (set : Byte) : BitVec 272 := laneWordOf 3 s.twin.round (set.setWidth 256)

/-- Puts the quarters of a flit on the active lanes in ascending order, round after round (R227). -/
def dealQuarters (f : BitVec 1024) : Nat → State → List (Nat × BitVec 272) → List (Nat × BitVec 272) × State
  | 0, s, acc => (acc, s)
  | k + 1, s, acc =>
    let ls := lanesOf s.twin.lanes
    let n := ls.getD s.twin.txPos 0
    let w := laneWordOf 1 s.twin.round (fld f (256 * (3 - k)) 256)
    let wrap := decide (ls.length ≤ s.twin.txPos + 1)
    dealQuarters f k
      (s.upTwin fun t => { t with txPos := if wrap then 0 else t.txPos + 1, round := if wrap then t.round + 1 else t.round })
      (acc ++ [(n, w)])

/-- Sends words of one round on a set of lanes. -/
def sendRound (words : List (Nat × BitVec 272)) (s : State) : State :=
  (s.emit (.lanes words)).upTwin fun t => { t with round := t.round + 1, txPos := 0 }

/-- The transmit set that the commands so far lead to. -/
def wantLanes (s : State) : Byte := s.twin.txNext.getD s.twin.lanes

/-- The transmit set is to change at the first round that begins with the first quarter of a flit (R228). -/
def changeLanes (set : Byte) (s : State) : State := s.upTwin fun t => { t with txNext := if set = t.lanes then none else some set }

/-- At such a round the set changes, behind one round of lane markers on the old lanes that remain (R228). -/
def switchLanes (s : State) : State :=
  match s.twin.txNext with
  | some set =>
    if s.twin.txPos ≠ 0 then s
    else
      (sendRound ((lanesOf (s.twin.lanes &&& set)).map fun n => (n, markerWord s set)) s).upTwin fun t => { t with lanes := set, txNext := none }
  | none => s

/-- One second of the time port. -/
def oneSecond : Nat := 1000000000

/-- When a lane that is dropped now may be added again: not within 1 s of its drop, where it was added less than 1 s ago (R228, log entry
140). -/
def heldOut (n : Nat) (s : State) : State :=
  let a := Tbl.get zeroD s.twin.addedAt n
  if a ≠ 0 ∧ s.glb.now.toNat < a.toNat + oneSecond then
    s.upTwin fun t => { t with outUntil := Tbl.set zeroD t.outUntil n (s.glb.now + BitVec.ofNat 64 oneSecond) }
  else s

/-- A lane leaves the active set for a reason of this side: LANE_DROP, its CE, and the new set; never the last lane (R228). -/
def dropLane (n : Nat) (s : State) : State :=
  let set := wantLanes s &&& ~~~laneBit n
  if (lk s .twin).st = .up ∧ bitAt (wantLanes s) n = true ∧ set ≠ 0 then
    linkCE .seamLaneDrop .twin (bump (smtPage + 0x060)
      (changeLanes set (queueCtl .twin (laneDropPayload set) (heldOut n (s.upTwin fun t =>
        { t with ownDrop := t.ownDrop ||| laneBit n, failedTrain := t.failedTrain &&& ~~~laneBit n })))))
  else s

/-- A write of SMT_LANE_CFG: a lane whose LANE_MASK bit falls is dropped at once (Table 12-8). -/
def setLaneCfg (v : BitVec 24) (s : State) : State :=
  let gone := permitted s
  let s1 := s.upTwin fun t => { t with laneCfg := v }
  let s2 := (lanesOf (gone &&& ~~~permitted s1)).foldl (fun s n => dropLane n s) s1
  if s2.twin.lnEn = 0 then s2 else s2.upTwin fun t => { t with lnEn := t.lnEn ||| permitted s2 }

/-! ### Sending a flit (R214, R217, R219, R220) -/

/-- Where Seam-R flits for a block go: destination ID and traffic class (R237). -/
def routeOf (s : State) (b : BitVec 11) : Option (BitVec 16 × BitVec 3) := Tbl.get noneD s.relay.route b.toNat

/-- The 64 header bits of a Seam-R flit (R44). -/
def streamHdr (s : State) (b : BitVec 11) : BitVec 64 :=
  let r := (routeOf s b).getD (0, 0)
  at64 r.1 0 ||| at64 r.2 16 ||| at64 (ownBlk s) 32 ||| at64 (b1 (strapB s)) 43 ||| at64 (0x5E17#16) 48

/-- Drives a flit on its link. -/
def putFlit (l : Seam) (f : BitVec 1024) (s : State) : State :=
  let s1 := perf (linkDom l) 0x40 (perfUnit (linkDom l) 1 s)
  match l with
  | .twin =>
    let r := dealQuarters f 4 (switchLanes s1) []
    r.2.emit (.lanes r.1)
  | .relay b _ => s1.emit (.stream f (streamHdr s b))

/-- Credits returned in one flit: at most 255. -/
def crField (n : Nat) : Byte := BitVec.ofNat 8 (min n 255)

/-- Sends a flit of type `typ` and payload `p` behind prefix `pre`; its header carries an acknowledgement where one is due, and the
credits owed. -/
def sendFlit (l : Seam) (typ : BitVec 2) (rsp : Bool) (p : BitVec 960) (pre : BitVec 16) (s : State) : State :=
  let x := lk s l
  let a := ackOf x
  let hdr := flitHeader typ rsp x.ackDue (if x.ackDue then a else 0) (crField x.owedReq) (crField x.owedRsp)
  let y := { x with owedReq := x.owedReq - 255, owedRsp := x.owedRsp - 255, ackDue := false, sinceAck := if x.ackDue then 0 else x.sinceAck,
                    ackSent := if x.ackDue then a else x.ackSent }
  putFlit l (mkFlit hdr p pre) (setLk l y s)

/-- Credits available on a VC: what has been granted less what has been sent (R221). -/
def creditsOf (x : Link) (rsp : Bool) : Bool :=
  if rsp then decide (x.crRsp ≠ x.sentRsp) else decide (x.crReq ≠ x.sentReq)

/-- Sends a new sequenced flit: it takes the next number and a credit, and is kept for replay. -/
def sendSeq (l : Seam) (rsp : Bool) (p : BitVec 960) (s : State) : State :=
  let x := lk s l
  let y := { x with txSeq := x.txSeq + 1, replay := x.replay ++ [{ seq := x.txSeq, rsp, payload := p, times := 0 }],
                    sentReq := if rsp then x.sentReq else x.sentReq + 1, sentRsp := if rsp then x.sentRsp + 1 else x.sentRsp }
  sendFlit l 1 rsp p (seqPre x.txSeq) (setLk l y s)

/-- Sends an unacknowledged flit again after a retrain: no replay, so that replay counts restart at zero (R223). -/
def resendFlit (l : Seam) (f : RepFlit) (s : State) : State :=
  let x := lk s l
  sendFlit l 1 f.rsp f.payload (seqPre f.seq) (setLk l { x with resendQ := x.resendQ.erase f.seq } s)

/-- Replays one flit, alone (R217). -/
def sendReplay (l : Seam) (f : RepFlit) (s : State) : State :=
  let x := lk s l
  let y := { x with replayQ := x.replayQ.erase f.seq,
                    replay := x.replay.map fun g => if g.seq = f.seq then { g with times := g.times + 1 } else g }
  sendFlit l 1 f.rsp f.payload (seqPre f.seq)
    (perf (linkDom l) 0x42 (bump (linkPage l + 0x030) (setLk l y s)))

/-! ### Messages to payloads (R215) -/

/-- DWs of a bundle area. -/
def bundleDws (isSealed : Bool) (b : BitVec 2880) : List DW := dwsOf b (if isSealed then 90 else 60)

/-- DWs of a message as Tables 11-3, 12-2 and 12-3 lay them out. -/
def msgDws : SMsg → List DW
  | .mirror src st => [at32 src 0 ||| at32 st 18 ||| at32 (0x1#4) 24]
  | .dirty g => [at32 g 6 ||| at32 (0x2#4) 24]
  | .snapshot g v => (at32 g 6 ||| at32 (0x3#4) 24) :: dwsOf v 4
  | .forward m => at32 (0x4#4) 24 :: dwsOf m 4
  | .fw kind dws => (at32 (BitVec.ofNat 16 ((dws.length + 1 + 29) / 30)) 0 ||| at32 kind 16 ||| at32 (0x5#4) 24) :: dws
  | .bundle isSealed b => bundleDws isSealed b
  | .bundleAck blk st q => [at32 blk 0 ||| at32 (b1 st) 11 ||| at32 (0xA#4) 24, q]
  | .bundleResend blk st q => [at32 blk 0 ||| at32 (b1 st) 11 ||| at32 (0xB#4) 24, q]

/-- Payloads of DWs, 30 to a flit. -/
def payloads : Nat → List DW → List (BitVec 960)
  | 0, _ => []
  | n + 1, l => if l = [] then [] else payloadOf (l.take 30) :: payloads n (l.drop 30)

/-- Type of a message that shares its flit with others of its type, and how many fit. -/
def packOf : SMsg → Option (Nat × Nat)
  | .mirror _ _ => some (1, 30)
  | .dirty _ => some (2, 30)
  | .snapshot _ _ => some (3, 6)
  | .forward _ => some (4, 6)
  | _ => none

/-- Messages of the head's type that go into its flit, and the rest. -/
def packRun (t n : Nat) : List SMsg → List SMsg × List SMsg
  | [] => ([], [])
  | m :: r =>
    if n = 0 then ([], m :: r)
    else
      match packOf m with
      | some (u, _) => if u = t then let p := packRun t (n - 1) r; (m :: p.1, p.2) else ([], m :: r)
      | none => ([], m :: r)

/-- The next payload of a VC with what remains of its message and its queue. -/
def nextPayload (frag : List (BitVec 960)) (q : List SMsg) : Option (BitVec 960 × List (BitVec 960) × List SMsg) :=
  match frag, q with
  | p :: r, _ => some (p, r, q)
  | [], [] => none
  | [], m :: r =>
    match packOf m with
    | some (t, n) =>
      let p := packRun t n (m :: r)
      some (payloadOf (p.1.flatMap msgDws), [], p.2)
    | none =>
      match payloads ((msgDws m).length + 1) (msgDws m) with
      | p :: more => some (p, more, r)
      | [] => none

/-! ### Payloads to messages (R215) -/

/-- Splits a payload of short messages. -/
def shortMsgs : Nat → List DW → List SMsg
  | 0, _ => []
  | n + 1, l =>
    match l with
    | [] => []
    | w :: r =>
      match (fld w 24 4).toNat with
      | 1 => .mirror (fld w 0 18) (fld w 18 2) :: shortMsgs n r
      | 2 => .dirty (fld w 6 12) :: shortMsgs n r
      | 3 => .snapshot (fld w 6 12) (BitVec.ofNat 128 (natOfDws (r.take 4))) :: shortMsgs n (r.drop 4)
      | 4 => .forward (BitVec.ofNat 128 (natOfDws (r.take 4))) :: shortMsgs n (r.drop 4)
      | _ => shortMsgs n r

/-- Kinds of FWMSG that a VC may carry (Table 12-3). -/
def fwKindOk (rsp : Bool) (k : Nat) : Bool :=
  if rsp then k = 0x02 || k = 0x04 || k = 0x12 else k = 0x01 || k = 0x03 || k = 0x10 || k = 0x11 || k = 0x20

/-- The length in flits of the message that starts with `w`; none discards the flit's payload. An FWMSG has its LEN on either link and
either VC (Table 12-2), whatever its KIND. -/
def msgLen (l : Seam) (rsp : Bool) (w : DW) : Option Nat :=
  let t := (fld w 24 4).toNat
  if t = 5 then some (max 1 (fld w 0 16).toNat)
  else
    match l with
    | .twin => if !rsp && decide (1 ≤ t ∧ t ≤ 4) then some 1 else none
    | .relay _ _ =>
      if rsp then (if t = 0xA ∨ t = 0xB then some 1 else none)
      else if t = 8 then some 2 else if t = 9 then some 3 else none

/-- The messages of a whole message's DWs. The spec does not say what becomes of an FWMSG whose KIND is not in Table 12-3 or not of its VC,
or of one on Seam-R, where no kind has a use: all its flits are discarded (DESIGN CHOICE, log entry 139). -/
def msgsOf (l : Seam) (rsp : Bool) (dws : List DW) : List SMsg :=
  let w := dws.getD 0 0
  match l with
  | .twin =>
    if fld w 24 4 = 5 then (if fwKindOk rsp (fld w 16 8).toNat then [.fw (fld w 16 8) (dws.drop 1)] else []) else shortMsgs 30 dws
  | .relay _ _ =>
    if fld w 24 4 = 5 then []
    else if rsp then
      if fld w 24 4 = 0xA then [.bundleAck (fld w 0 11) (bitAt w 11) (dws.getD 1 0)]
      else [.bundleResend (fld w 0 11) (bitAt w 11) (dws.getD 1 0)]
    else [.bundle (fld w 24 4 = 9) (BitVec.ofNat 2880 (natOfDws dws))]

/-- `n` buffers of a VC are free again: as many credits are granted (R220). -/
def freeBufs (rsp : Bool) (n : Nat) (x : Link) : Link :=
  if rsp then { x with grantRsp := x.grantRsp + BitVec.ofNat 32 n, owedRsp := x.owedRsp + n }
  else { x with grantReq := x.grantReq + BitVec.ofNat 32 n, owedReq := x.owedReq + n }

/-- Messages of which the last frees `n` buffers. -/
def markLast (n : Nat) : List SMsg → List RxMsg
  | [] => []
  | [m] => [{ m, frees := n }]
  | m :: r => { m, frees := 0 } :: markLast n r

/-- Messages join what waits for its user. -/
def addRx (rsp : Bool) (ms : List RxMsg) (x : Link) : Link :=
  if rsp then { x with rxRsp := x.rxRsp ++ ms } else { x with rxReq := x.rxReq ++ ms }

/-- The user of an FWMSG takes each of its flits as it comes, since it may be longer than the buffer; a bundle keeps its flits until it is
taken (R220, log entry 141). -/
def takenByFlit (w : DW) : Bool := decide (fld w 24 4 = 5)

/-- A flit passed to the user: its payload starts, continues or ends a message (R215, R218). -/
def deliver (l : Seam) (rsp : Bool) (p : BitVec 960) (x : Link) : Link :=
  let dws := dwsOf p 30
  let asm := (if rsp then x.asmRsp else x.asmReq) ++ dws
  let setAsm := fun (y : Link) (a : List DW) => if rsp then { y with asmRsp := a } else { y with asmReq := a }
  match msgLen l rsp (asm.getD 0 0) with
  | none => freeBufs rsp 1 (setAsm x [])
  | some n =>
    let each := takenByFlit (asm.getD 0 0)
    if asm.length < 30 * n then freeBufs rsp (if each then 1 else 0) (setAsm x asm)
    else
      let k := if each then 1 else n
      match markLast k (msgsOf l rsp asm) with
      | [] => freeBufs rsp k (setAsm x [])
      | ms => addRx rsp ms (setAsm x [])

/-- A message that Twifomon takes: every FWMSG but TALLY_CKPT (Table 12-2). The others are taken by hardware, so neither kind waits for
the other (log entry 36). -/
def fwTakes (m : SMsg) : Bool :=
  match m with
  | .fw kind _ => decide (kind ≠ 0x20)
  | _ => false

/-- The messages of a VC that wait for their user. -/
def rxOf (x : Link) (rsp : Bool) : List RxMsg := if rsp then x.rxRsp else x.rxReq

/-- The next message of a VC for its user, Twifomon or hardware. -/
def headRx (s : State) (l : Seam) (rsp fw : Bool) : Option SMsg :=
  ((rxOf (lk s l) rsp).find? fun m => fwTakes m.m = fw).map RxMsg.m

/-- The user takes its next message of a VC. -/
def takeRx (l : Seam) (rsp fw : Bool) (s : State) : State :=
  let x := lk s l
  match (rxOf x rsp).find? fun m => fwTakes m.m = fw with
  | none => s
  | some m =>
    let rest := (rxOf x rsp).eraseP fun m => fwTakes m.m = fw
    let y := if rsp then { x with rxRsp := rest } else { x with rxReq := rest }
    setLk l (freeBufs rsp m.frees y) s

/-! ### Headers (R217, R219, R220) -/

/-- An acknowledgement frees every flit up to it, when it names one that is outstanding. -/
def takeAck (a : BitVec 12) (x : Link) : Link :=
  match x.replay.findIdx? fun f => f.seq = a with
  | some i =>
    let left := fun (q : BitVec 12) => (x.replay.drop (i + 1)).any fun f => f.seq = q
    { x with replay := x.replay.drop (i + 1), replayQ := x.replayQ.filter left, resendQ := x.resendQ.filter left }
  | none => x

/-- The header fields of a flit that passed a check; on an UP link a retrain has succeeded with it (R223). -/
def takeHeader (f : BitVec 1024) (x : Link) : Link :=
  let y := if flAckV f then takeAck (flAck f) x else x
  { y with crReq := y.crReq + (flCrReq f).setWidth 32, crRsp := y.crRsp + (flCrRsp f).setWidth 32, fails := if y.st = .up then 0 else y.fails,
           proving := y.proving && decide (y.st ≠ .up) }

/-! ### Rinse, retrain, training (R222–R224) -/

/-- Messages that have passed to the user before a Rinse stay with it, and free no buffer any more. -/
def unmark (ms : List RxMsg) : List RxMsg := ms.map fun m => { m with frees := 0 }

/-- The link after a Rinse: everything held, queued or unacknowledged is discarded, sequences start at 0, and credits are as given. -/
def rinsed (l : Seam) (x : Link) (cr cs : BitVec 32) : Link :=
  { linkD 0 with st := x.st, crReq := cr, crRsp := cs, grantReq := BitVec.ofNat 32 (bufReq l), grantRsp := BitVec.ofNat 32 (bufRsp l),
                 mismatch := x.mismatch, fails := x.fails, rxReq := unmark x.rxReq, rxRsp := unmark x.rxRsp }

/-- A Rinse is counted and logged. -/
def noteRinse (l : Seam) (s : State) : State := linkCE .seamRinse l (bump (linkPage l + 0x050) s)

/-- The link after a retrain or resumption: holes and held flits discarded, E after the ACK_SEQ sent, every unacknowledged flit to be
sent again in order, replay counts zero. -/
def resumed (x : Link) (ack : BitVec 12) : Link :=
  let y := takeAck ack x
  { y with holes := [], heldF := [], exp := y.ackSent + 1, bad := 0, replay := y.replay.map fun f => { f with times := 0 },
           replayQ := [], resendQ := y.replay.map fun f => f.seq }

/-- Training begins on the lanes: none is deskewed yet, and no set waits (Table 12-5, step 2). -/
def startLanes (l : Seam) (s : State) : State :=
  match l with
  | .twin => s.upTwin fun t => { t with deskewed := 0, txNext := none }
  | .relay _ _ => s

/-- A retrain starts (R223). -/
def startRetrain (l : Seam) (s : State) : State :=
  let x := lk s l
  linkCE .seamRetrain l (bump (linkPage l + 0x040)
    (setLk l { x with st := .retrain, trained := false, resume := false, bad := 0, due := false, proving := false, ackSent := ackOf x }
      (startLanes l s)))

/-- A retrain that is due starts before anything else happens on the link (R217, R218). -/
def retrainIfDue (l : Seam) (s : State) : State := if (lk s l).st = .up ∧ (lk s l).due then startRetrain l s else s

/-- A link begins to train without a session to resume. -/
def startTraining (l : Seam) (s : State) : State :=
  setLk l { lk s l with st := .training, trained := false, resume := false } (startLanes l s)

/-- Seam-T enables its permitted lanes and trains (R195, Table 12-5 step 1). -/
def trainTwin (s : State) : State := startTraining .twin (s.upTwin fun t => { t with lnEn := permitted s })

/-- The TRAIN flit meets the rule of its link (R222). -/
def trainOk (s : State) (l : Seam) (p : BitVec 960) : Bool :=
  let w := payDw p 2
  let blk := fld w 0 11
  let st := bitAt w 11
  fld (payDw p 1) 0 16 = 0x5E17 && fld (payDw p 5) 0 8 = 0x01 &&
    match l with
    | .twin => decide (blk = ownBlk s) && decide (st ≠ strapB s)
    | .relay b t => decide (blk = b) && decide (st = t) && decide (b ≠ ownBlk s)

end Sys2Proof.Machine
end

