-- ==== Sys2Proof/Machine/TwinOps.lean ====
section
/-! DEFINITION. The pair as shared operations (file 11): loss and takeover, ends of a commit, the lease, and the steps of Rewash. -/

namespace Sys2Proof.Machine

/-- The Seam-T link is up. -/
def twinUp (s : State) : Bool := decide ((lk s .twin).st = .up)

/-- The Seam-T link is down: no session is kept up or in a retrain. -/
def twinDown (s : State) : Bool :=
  match (lk s .twin).st with
  | .up | .retrain => false
  | .down | .training | .grace => true

/-- The own strap names the holder of a lease word (Table 11-5). -/
def wordHeld (w : BitVec 64) : Bool := bitAt w 12
def wordOwn (s : State) (w : BitVec 64) : Bool := decide (bitAt w 11 = strapB s)

/-! ### Ends of a commit (Table 10-3) -/

/-- The coordinator flips a commit that is decided. -/
def flipRun (c : CommitRun) (s : State) : State :=
  match c.what with
  | .txn t => flipFor c.mbx t s
  | .destroy _ => perf dMgt 0x51 (flip c.what s)

/-- A flipped commit is answered OK. -/
def answerRun (c : CommitRun) (s : State) : State :=
  let s1 := s.upFw fun f => { f with commit := none }
  if inCommit s1 c.mbx then
    match c.what with
    | .txn _ => answerJournal c.mbx s1
    | .destroy _ => answer c.mbx stOk [] s1
  else s1

/-- A commit that ends without the partner: a transaction changes nothing; a destroy stands here, its number retired (R263). -/
def failRun (c : CommitRun) (status : Byte) (s : State) : State :=
  match c.what with
  | .txn _ => endCommit c.mbx status s
  | .destroy t =>
    let s1 := (s.upFw fun f => { f with commit := none }).setTenantR t.toNat { s.tenantR t.toNat with retired := true }
    if inCommit s1 c.mbx then answer c.mbx stOk [] s1 else s1

/-- No vote: under the lease the block renews it and flips alone, else the commit fails (Table 10-3). -/
def noVote (c : CommitRun) (s : State) : State :=
  if s.twin.lease && s.twin.word.isSome then renewCommit (s.upFw fun f => { f with commit := some { c with stage := .renew } })
  else failRun c stTwin s

/-- The block runs SOLO and mirrors nothing (Tables 10-3 and 11-1). -/
def runSolo (s : State) : State :=
  s.upTwin fun w => { w with state := .solo, mirrorQ := [], notice := [], txDirty := [], snapPhase := false }

/-- The renewal of R206 has come: the commit flips alone, and the block runs SOLO. -/
def renewed (c : CommitRun) (s : State) : State := answerRun c (flipRun c (if s.twin.state = .solo then s else runSolo s))

/-- The partner is lost while a commit runs; without Twifomon nothing is decided or answered until it is back (R9). -/
def lossRun (s : State) : State :=
  match s.fw.commit with
  | none => s
  | some c =>
    if !fwReady s then s
    else
      match c.stage with
      | .vote => noVote c s
      | .ack => answerRun c s
      | .renew => if s.twin.lease then renewCommit s else failRun c stTwin s

/-- The pair ends: a mask stands on this block alone, and TWIN_WITNESS cannot store on both (R196, R204). -/
def endAsks (s : State) : State :=
  (mbxKeys s).foldl
    (fun s k =>
      match (s.mailbox k).busy with
      | .mask src _ => waitOn (mbxOf k) (.mask src false) s
      | .witness _ (some _) => if fwReady s then answer (mbxOf k) stTwin [] s else s
      | _ => s) (s.upFw fun f => { f with asks := [], asked := [] })

/-- A prepared transaction flips to its prepared epoch, and PREPARED falls. -/
def flipPrepared (p : Prepared) (s : State) : State :=
  let s1 := s.upFw fun f => { f with prepared := none }
  let t := match p.what with | .txn t => t | .destroy _ => Txn.empty
  perf dMgt 0x51 (flipAt p.epoch true t s1)

/-- Presumed commit: a block that voted YES flips when it sees the link down, once Twifomon can (R181, R310). -/
def presume (s : State) : State :=
  match s.fw.prepared with
  | some p => if !twinDown s || !fwReady s then s else flipPrepared p s
  | none => s

/-! ### Loss and takeover (R199–R201) -/

/-- Every source that the mirror view names, or that lies in a dirty range. -/
def viewSources (s : State) : List Nat :=
  unionKeys (s.twin.view.map Prod.fst) ((s.twin.rxDirty.flatMap fun g => (List.range 64).map fun i => 64 * g + i).filter fun k => srcLive s (srcNow s k) s.glb.epoch)

/-- Source `k` gets a takeover event. -/
def takesOver (s : State) (k : Nat) : Bool :=
  let v := s.viewOf k
  decide (v = 1) || decide (v = 3) || (decide (v = 2) && decide (srcMode (srcNow s k) = 1)) ||
    (s.twin.rxDirty.contains (rangeOf k) && srcLive s (srcNow s k) s.glb.epoch)

/-- A TWIN_REWASH that can no longer end is answered, where Twifomon runs (R9). -/
def endRewashCmd (status : Byte) (s : State) : State :=
  match s.twin.rewash with
  | some r =>
    match r.byCommand with
    | some m => if decide ((s.mailbox (mbxKey m)).busy = .rewash) && fwReady s then answer m status [] s else s
    | none => s
  | none => s

/-- The partner is lost: mirroring stops, the takeover begins, and the block is ALONE, or SOLO where it holds the lease (R199, R200, Table
11-1). -/
def partnerLost (s : State) : State :=
  let s1 := endAsks (endRewashCmd stTwin s)
  let l := (viewSources s1).filter fun k => takesOver s1 k
  lossRun (s1.upTwin fun w =>
    { w with state := if w.lease then .solo else .alone, partner := none, mirrorQ := [], notice := [], txDirty := [], snapPhase := false, rewash := none,
             takeLeft := some l, ckptWrite := decide (w.ckpt ≠ []) })

/-- The block has a partner that it could lose. -/
def hasPartner (s : State) : Bool :=
  decide (s.twin.state = .paired) || decide (s.twin.state = .degraded) || decide (s.twin.state = .rewash)

/-- The event of a takeover: COOKIE 0, FOLDS 0, the time now, COOKIE_LOST, DUP (R201). -/
def takeoverEv (k : Nat) (s : State) : State × Ev :=
  let r := takeSlot k (.used 0 0 s.glb.now true) s
  (r.1, { newEv s s.glb.epoch r.2 true with takeover := true })

/-- A takeover event folds into the source's own event: FOLDS + 1 and DUP. -/
def takeoverFold (k : Nat) (s : State) : State :=
  let d := s.dyn k
  match curEv d with
  | some e => foldSlot e 1 none (s.setDyn k (setCur d { e with dup := true }))
  | none => s

/-- Table 11-4. A level source's LINE becomes 1. -/
def takeoverApply (k : Nat) (s0 : State) : State :=
  let ent := srcNow s0 k
  let d0 := s0.dyn k
  if !srcLive s0 ent s0.glb.epoch ∨ d0.st = .quarantined then s0
  else
    let d := { d0 with line := d0.line || decide (srcMode ent = 1) }
    let s := s0.setDyn k d
    match d.st with
    | .idle =>
      let r := takeoverEv k s
      perfHeld k (pendState s ent) (putDyn k { d with st := pendState s ent, ev := some r.2, evMode := srcMode ent } r.1)
    | .pending | .held | .activePending => takeoverFold k s
    | .issued =>
      match curEv d with
      | some e =>
        if !e.frozen then takeoverFold k s
        else
          let r := takeoverEv k s
          r.1.setDyn k { d with rep := some r.2, evMode := srcMode ent }
      | none => s
    | .active =>
      let r := takeoverEv k s
      putDyn k { d with st := .activePending, ev := some r.2, evMode := srcMode ent } r.1
    | .quarantined => s

/-! ### Rewash (R207–R209) -/

/-- Tables exchanged in Rewash with their ranges of 64 entries: sources, rings, the three gates' regions, multicast sets, remote entries,
groups. -/
def rewashTables : List (Nat × Nat) := [(0, 4096), (1, 512), (2, 32), (3, 8), (4, 64), (5, 64), (6, 128), (7, 64)]

/-- A source entry as Rewash compares and sends it: a learned binding stays on its block (R74, log entry 26). -/
def rewashSrc (e : SrcEntry) : SrcEntry := if srcClaim e then srcSetPort e 0xFF else e

/-- Entry `i` of a table. -/
def tableItem (s : State) (tb i : Nat) : Item :=
  match tb with
  | 0 => .src i (rewashSrc (srcNow s i))
  | 1 => .ring i (ringNow s i)
  | 2 => .region i (s.region i)
  | 3 => .region (4096 + i) (s.region (4096 + i))
  | 4 => .region (8192 + i) (s.region (8192 + i))
  | 5 => .mcast i (s.mcastV i).cur
  | 6 => .remote i (s.remoteV i).cur
  | _ => .group i (s.group i)

/-- The 64 entries of a range. -/
def rangeItems (s : State) (tb g : Nat) : List Item := (List.range 64).map fun i => tableItem s tb (64 * g + i)

/-- Every range of every table. -/
def allRanges : List (Nat × Nat) := rewashTables.flatMap fun p => (List.range p.2).map fun g => (p.1, g)

/-- The digest of a range: SHA-384 over bytes that the spec does not lay out (log entry 11). -/
def rangeDigestOf (s : State) (p : Nat × Nat) : BitVec 384 :=
  Config.rangeDigest (natOfDws ([BitVec.ofNat 32 p.1, BitVec.ofNat 32 p.2] ++ (rangeItems s p.1 p.2).flatMap fun i => (itemArgs i).2))

/-- Tenant numbers retired here (R263). -/
def retiredMap (s : State) : BitVec 256 :=
  s.tenant.foldl (fun m p => if p.2.retired then m ||| ((1#256) <<< p.1) else m) 0

/-- What this block tells its partner in step 2. -/
def ownInfo (s : State) (issued : Bool) : RewashInfo :=
  { epoch := s.glb.epoch, committed := s.fw.committed, lease := s.twin.lease || s.twin.holder, issued, word := s.twin.word,
    retired := retiredMap s, digests := allRanges.map fun p => rangeDigestOf s p }

/-- The DWs of REWASH_INFO, in a layout of the model's own (log entry 11). -/
def infoDws (i : RewashInfo) : List DW :=
  (at32 i.epoch 0 ||| at32 (b1 i.committed) 16 ||| at32 (b1 i.lease) 17 ||| at32 (b1 i.word.isSome) 18 ||| at32 (b1 i.issued) 19) ::
    two (i.word.getD 0) ++ dwsOf i.retired 8 ++ i.digests.flatMap fun d => dwsOf d 12

/-- Digests from DWs. -/
def digestsOf : Nat → List DW → List (BitVec 384)
  | 0, _ => []
  | n + 1, l => BitVec.ofNat 384 (natOfDws (l.take 12)) :: digestsOf n (l.drop 12)

/-- REWASH_INFO as received. -/
def infoOf (l : List DW) : RewashInfo :=
  let w := dwAt l 0
  { epoch := fld w 0 16, committed := bitAt w 16, lease := bitAt w 17, issued := bitAt w 19,
    word := if bitAt w 18 then some (qwAt l 1) else none, retired := BitVec.ofNat 256 (natOfDws ((l.drop 3).take 8)),
    digests := digestsOf allRanges.length (l.drop 11) }

/-- Step 1: commits answer BUSY, nothing is mirrored, and the partner's image counts as dirty until its snapshots come. -/
def enterRewash (s : State) : State :=
  s.upTwin fun w =>
    { w with state := .rewash, mirrorQ := [], notice := [], txDirty := [], snapPhase := false, rxDirty := List.range 4096, rewash := none }

/-- Step 2 on this block's side. -/
def startRewash (m : Option Mbx) (s : State) : State :=
  let s1 := s.upTwin fun w => { w with rewash := some { byCommand := m, info := none, keeper := none, sent := false, done := false } }
  sendReq (.fw 0x10 (infoDws (ownInfo s m.isSome))) s1

/-- Two blocks that find each other: from ALONE or SOLO to REWASH; from TRAINING to PAIRED, or to REWASH when either has committed
(R195, R207). Rewash needs Twifomon on both. -/
def reunite (s : State) : State :=
  match s.twin.partner with
  | none => s
  | some h =>
    if !twinUp s || h.fatal || s.log.fatal then s
    else
      let both := fwReady s && !h.fwHalted
      match s.twin.state with
      | .alone | .solo => if both then enterRewash s else s
      | .training =>
        if s.fw.committed ∨ h.epoch ≠ 0 ∨ h.state = 3 ∨ h.state = 4 ∨ h.state = 5 then (if both then enterRewash s else s)
        else s.upTwin fun w => { w with state := .paired, txDirty := [] }
      | _ => s

/-- A heartbeat of the partner: liveness, or loss at once when it is FATAL (R199). -/
def heartbeatIn (h : Heartbeat) (s : State) : State :=
  let s1 := s.upTwin fun w => { w with partner := some h }
  if h.fatal && hasPartner s1 then partnerLost s1 else reunite s1

/-- The lease word to judge by. R208 does not say when the word counts as one that cannot be read where an older reading exists; the model
judges by the word last read, whatever came of a later read, and of the two blocks' readings by the one with the higher COUNT (DESIGN CHOICE,
log entry 132). -/
def judgeWord (a b : Option (BitVec 64)) : Option (BitVec 64) :=
  match a, b with
  | some x, some y => if (fld x 16 32).toNat < (fld y 16 32).toNat then some y else some x
  | some x, none => some x
  | none, y => y

/-- Whether this block keeps (R208). -/
def keeps (s : State) (own other : RewashInfo) : Bool :=
  if own.committed ≠ other.committed then own.committed
  else if own.issued ≠ other.issued then own.issued
  else
    match judgeWord own.word other.word with
    | some w => if wordHeld w then wordOwn s w else !strapB s
    | none => if own.lease ≠ other.lease then own.lease else !strapB s

/-- Cuts a list into pieces of `n`. -/
def chunks {α : Type} (n : Nat) : Nat → List α → List (List α)
  | 0, _ => []
  | k + 1, l => if l = [] then [] else l.take n :: chunks n k (l.drop n)

/-- The ranges in which the two blocks differ, in pieces of eight, which stay within Table 10-1. -/
def diffPieces (s : State) (other : RewashInfo) : List (List (Nat × Nat)) :=
  let d := ((allRanges.zip other.digests).filter fun p => rangeDigestOf s p.1 ≠ p.2).map Prod.fst
  if d = [] then [[]] else chunks 8 d.length d

/-- The keeper sends the differing entries, one message to a flip, the last with its own epoch (Table 11-6, step 3). -/
def sendEntries (other : RewashInfo) (s : State) : State :=
  let ps := diffPieces s other
  (ps.zip (List.range ps.length)).foldl
    (fun t p =>
      let x := s.glb.epoch - BitVec.ofNat 16 (ps.length - 1 - p.2)
      let items := p.1.flatMap fun r => rangeItems s r.1 r.2
      sendReq (.fw 0x11 (x.setWidth 32 :: items.flatMap fun i => blockDws (itemArgs i).1 (itemArgs i).2)) t) s

/-- Step 4: a SNAPSHOT of every range is owed. -/
def startSnapshots (s : State) : State := s.upTwin fun w => { w with txDirty := List.range 4096, snapPhase := true }

/-- The state after Rewash: PAIRED, or DEGRADED while ranges are dirty or the mirror queue is at its threshold (R198). -/
def pairedState (s : State) : Pair :=
  if s.twin.txDirty ≠ [] ∨ 3072 ≤ mirrorCount s.twin.mirrorQ then .degraded else .paired

/-- Step 6: the pair is PAIRED, and TWIN_REWASH answers. -/
def pairUp (r : RewashRun) (s : State) : State :=
  let s1 := match r.byCommand with
    | some m => if decide ((s.mailbox (mbxKey m)).busy = Busy.rewash) then answer m stOk [4096] s else s
    | none => s
  let s2 := s1.upTenant fun x => (x.map Prod.fst).foldl (fun t k => Tbl.set tenantD t k { Tbl.get tenantD t k with retired := false }) x
  s2.upTwin fun w => { w with state := pairedState s, snapPhase := false, rewash := none, holder := false, ckpt := [], ckptWrite := false }

/-- Step 5: the holder releases the lease (R205), once no other request for it is outstanding. -/
def releaseLease (s : State) : State :=
  match s.twin.word with
  | some w => if leaseBusy s then s else readReq (.leaseRelease w (leaseSwap s false w)) s
  | none => s

/-- Steps 5 and 6, once both sides have every snapshot: step 6 waits until the lease is released. -/
def finishRewash (s : State) : State :=
  match s.twin.rewash with
  | some r => if r.sent && r.done && fwReady s then (if s.twin.lease then releaseLease s else pairUp r s) else s
  | none => s

/-- Every epoch that something holds moves by `d`, so that the numbering in force meets the adopter's new one (R209, log entry 27). -/
def shiftEpochs (d : BitVec 16) (s : State) : State :=
  let q := fun (r : Req) => { r with epoch := r.epoch + d }
  let e := fun (x : Ev) => { x with epoch := x.epoch + d }
  let m := fun (x : Msg) => { x with epoch := x.epoch + d }
  let g := fun (x : Grant) => match x with | .recs r qs n w ep ent => Grant.recs r (qs.map q) n w (ep + d) ent | .own o => .own o
  let tq := fun (t : Tbl (List Req)) => t.map fun p => (p.1, p.2.map q)
  let s1 := (s.dlv.ring.map Prod.fst).foldl (fun s k => s.setRingV k { s.ringV k with x := (s.ringV k).x + d }) s
  let s2 := (s1.dlv.mcast.map Prod.fst).foldl (fun s k => s.setMcastV k { s.mcastV k with x := (s.mcastV k).x + d }) s1
  let s3 := (s2.dlv.remote.map Prod.fst).foldl (fun s k => s.setRemoteV k { s.remoteV k with x := (s.remoteV k).x + d }) s2
  let s4 := s3.upSlc fun c =>
    { c with dyn := c.dyn.map fun p => (p.1, { p.2 with ev := p.2.ev.map e, rep := p.2.rep.map e }),
             shadow := c.shadow.map fun p => (p.1, p.2.map fun h => { h with epoch := h.epoch + d }) }
  let s5 := s4.upIntake fun i =>
    { i with queue := i.queue.map fun p => (p.1, p.2.map m), folder := i.folder.map fun p => (p.1, p.2.map fun x => { x with m := m x.m }),
             fences := i.fences.map fun f => { f with epoch := f.epoch + d } }
  let s6 := s5.upDlv fun v =>
    { v with sel := tq v.sel, lq := tq v.lq, pace := tq v.pace, hamper := v.hamper.map q, members := v.members.map q,
             grants := v.grants.map fun p => (p.1, p.2.map g) }
  s6.upRelay fun y => { y with stage := y.stage.map q, inbox := y.inbox.map fun b => { b with epoch := b.epoch + d } }

/-- The entry of this block that an item would replace, as Rewash compares it. -/
def ownItem (s : State) (i : Item) : Item :=
  match i with
  | .src k _ => .src k (rewashSrc (srcNow s k))
  | .ring r _ => .ring r (ringNow s r)
  | .region k _ => .region k (s.region k)
  | .mcast k _ => .mcast k (s.mcastV k).cur
  | .remote k _ => .remote k (s.remoteV k).cur
  | .group g _ => .group g (s.group g)

/-- The entries of a range that differ here; an equal one is not installed, so it keeps its binding, its prior version and its quarantine
(Table 11-6, step 3). -/
def differing (s : State) (t : Txn) : Txn := ((itemsOf t).filter fun i => i ≠ ownItem s i).foldl addItem Txn.empty

/-- The adopter's flip to epoch `x` (Table 11-6, step 3, R209). -/
def adoptFlip (x : BitVec 16) (t0 : Txn) (s : State) : State :=
  let t := differing s t0
  flipAt x false t ((shiftEpochs (x - 1 - s.glb.epoch) s).upGlb fun g => { g with epoch := x - 1 })

/-! ### The lease (R205) -/

/-- The lease is lost or given up: a SOLO block is ALONE. -/
def dropLease (s : State) : State :=
  s.upTwin fun w => { w with lease := false, state := if w.state = .solo then .alone else w.state }

/-- The lease is taken with word `w`. -/
def gotLease (w : BitVec 64) (s : State) : State :=
  s.upTwin fun t => { t with lease := true, word := some w, wordAt := s.glb.now, renewAt := s.glb.now,
                             state := if t.state = .alone then .solo else t.state }

/-- 10 ms have passed since the word was last read, or last tried. -/
def wordOld (s : State) : Bool := decide (s.twin.wordAt.toNat + 10000000 ≤ s.glb.now.toNat)

/-- A word has been read: it is free, or held and unchanged for 10 ms, and the block swaps; else it waits. -/
def judgeRead (w : BitVec 64) (s : State) : State :=
  let same := match s.twin.word with | some v => decide (fld v 16 32 = fld w 16 32) && wordOld s | none => false
  let s1 := s.upTwin fun t => { t with word := some w, wordAt := s.glb.now }
  if s.twin.state ≠ .alone then s1
  else if !wordHeld w || wordOwn s w || same then readReq (.leaseTake w (leaseSwap s true w)) s1
  else s1

end Sys2Proof.Machine
end

