-- ==== Sys2Proof/Machine/Power.lean ====
section
/-! DEFINITION. The commands of power, reset, scans and merge (files 02, 06, 10, 17). -/

namespace Sys2Proof.Machine

/-! ### Domains (R38, R40, R41, R300, R301) -/

/-- PORT_RESET_NOTIFY. PRST_REQ rises: every Tack held from the port breaks, and PRST_ACK rises (R38, R297); while PRST_ACK is high a new
reset has no handshake of its own. PRST_REQ falls: PRST_ACK falls (Table 2-2, phases 3 and 4). -/
def doPortResetNotify (p : Nat) (rise : Bool) (s : State) : State :=
  if !rise then s.upPwr fun w => { w with prstAck := w.prstAck &&& ~~~(1#64 <<< p) }
  else if !accepting s || bitAt s.pwr.prstAck p then s
  else
    let s1 := (s.tack.map Prod.fst).foldl (fun s n => if (s.tackAt n).port.toNat = p then breakTack n 1 s else s) s
    s1.upPwr fun w => { w with prstAck := w.prstAck ||| (1#64 <<< p) }

def execPortResetNotify (p : PortReset) (s : State) : Host.Outcome State Fault Refusal :=
  .next (s.run (doPortResetNotify p.port.val p.rise))

/-- The block is powered and past its reset. -/
def powered (s : State) : Bool := decide (s.pwr.phase = .init) || decide (s.pwr.phase = .run)

/-- DOMAIN_POWER_OFF_ACK: PWR_ON_ACK is low after a release, so a domain that is wanted is requested again (R40). -/
def doDomainPowerOffAck (d : Nat) (s : State) : State :=
  if bitAt s.pwr.ack d && !bitAt s.pwr.req d then
    let s1 := s.upPwr fun p => { p with ack := p.ack &&& ~~~(1#30 <<< d) }
    if bitAt s.pwr.want d && powered s then powerOn d s1 else s1
  else s

def execDomainPowerOffAck (d : Fin 30) (s : State) : Host.Outcome State Fault Refusal := .next (s.run (doDomainPowerOffAck d.val))

/-- PWR_TIMEOUT: PWR_ON_ACK is not high 1 µs after the request (R301); each request is logged once. -/
def doPwrTimeout (d : Nat) (s : State) : State :=
  if bitAt s.pwr.req d && !domOn s d && !bitAt s.pwr.late d then
    logKind .pwrTimeout (uDomain d) 0 (s.upPwr fun p => { p with late := p.late ||| (1#30 <<< d) })
  else s

def execPwrTimeout (d : Fin 30) (s : State) : Host.Outcome State Fault Refusal := .next (s.run (doPwrTimeout d.val))

/-- AON_POWER_DOWN: every request of a domain falls, PWR_AON_DN_ACK rises, and the block does nothing more until COLD_START (R41, log
entry 24). -/
def doAonPowerDown (s : State) : State :=
  s.upPwr fun p => { p with phase := .down, req := 0, want := 0, on := 1, aonDnAck := true }

def execAonPowerDown (s : State) : Host.Outcome State Fault Refusal := .next (s.run doAonPowerDown)

/-! ### Cold start (R303–R306) -/

/-- COLD_START: the state after reset. The commands that wait, the switch's handshakes at the DIP pins, and the model's own counters are
no part of it. -/
def doColdStart (s : State) : State :=
  { State.reset with pending := s.pending, stepNo := s.stepNo, freeCtr := s.freeCtr,
                     intake := { Intake.reset with held := s.intake.held.map fun p => (p.1, p.2.map fun h => { h with stalled := false }) } }

def execColdStart (s : State) : Host.Outcome State Fault Refusal := .next (doColdStart s.begin_)

/-- The straps as sampled: above 8 lanes read as 8 (Table 2-9). -/
def strapsOf (x : Straps) : Straps := { x with lanes := if 8 < x.lanes.toNat then 8 else x.lanes }

/-- Domains that Table 17-1 requests at cold start and warm release. -/
def bootDomains (s : State) : List Nat :=
  (List.range 30).filter fun d =>
    (decide (1 ≤ d) && decide (d ≤ dDlv)) || (decide (d = dSmt) && decide (s.pwr.straps.lanes ≠ 0)) ||
      (decide (d = dSmr) && decide (ownBlk s ≠ 0x7FF)) || decide (d = dMgt) || (decide (d = dCry) && keyLoaded s)

/-- Raises PWR_ON_REQ of each. -/
def bootPower (s : State) : State := (bootDomains s).foldl (fun s d => wake d s) s

/-- Steps 2 to 4 of Table 17-3. With no lanes fitted the block is SOLO from the start with PARTNER_ABSENT (Table 2-9). -/
def coldInit (x : Straps) (s : State) : State :=
  let s1 := s.upPwr fun p => { p with phase := .init, supplyOk := true, straps := strapsOf x }
  let s2 := s1.upDlv fun d => { d with ceil := 16 * ceilOf s1 pBalanced }
  let s3 := if (strapsOf x).lanes = 0 then s2.upTwin fun w => { w with state := .solo, absent := true } else s2
  bootPower s3

/-! ### Warm reset (R308–R311) -/

/-- Every HELD Tack breaks with CAUSE 00 (R297). -/
def breakAll (s : State) : State := (s.tack.map Prod.fst).foldl (fun s n => breakTack n 0 s) s

/-- Outputs and domains at reset (Table 2-12): PWR_ON_REQ and every clamped output are zero. -/
def holdReset (cut brown : Bool) (s : State) : State :=
  (s.upPwr fun p =>
    { p with phase := .held, brown, drainCut := cut, on := 1, req := 0, want := 0, prstAck := 0, steerLow := false }).upTwin fun w =>
    { w with lnEn := 0 }

/-- BROWN_OUT: PWR_SUPPLY_OK falls. With RST_WARM_N high, warm reset begins without a drain (R303). With RST_WARM_N low it is part of the
warm reset; a drain that runs is cut short, since the outputs take their reset values at once (R48, R308). -/
def doBrownOut (s : State) : State :=
  if powered s then breakAll ((holdReset false true s).upPwr fun p => { p with supplyOk := false })
  else
    match s.pwr.phase with
    | .drain => (holdReset true false s).upPwr fun p => { p with supplyOk := false }
    | .held => s.upPwr fun p => { p with supplyOk := false }
    | _ => s

def execBrownOut (s : State) : Host.Outcome State Fault Refusal := .next (s.run doBrownOut)

/-- WARM_RESET_ENTRY: RST_WARM_N falls, the drain of Table 17-5 begins (R308), and HELD Tacks break (R297). In a brown-out nothing is left
to drain. -/
def doWarmResetEntry (s : State) : State :=
  if powered s then breakAll (s.upPwr fun p => { p with phase := .drain, rstWarmN := false })
  else if s.pwr.phase = .held then s.upPwr fun p => { p with rstWarmN := false }
  else s

def execWarmResetEntry (s : State) : Host.Outcome State Fault Refusal := .next (s.run doWarmResetEntry)

/-- The accumulators of one Folder go to their slices, in a FATAL block too (Table 17-5, step 2). -/
def drainFolder (dip : Nat) (s : State) : State :=
  ((s.folder dip).foldl (fun s e => if 0 < e.count then enqueue dip (accMsg e) s else s) s).setFolder dip []

/-- Non-empty accumulators of the Folders go to their slices. -/
def drainFolders (s : State) : State := (List.range 16).foldl (fun s d => drainFolder d s) s

/-- The events that latches and samplers hold are presented (Table 17-5, step 2). -/
def drainWired (s : State) : State :=
  ((s.intake.edge.map Prod.fst) ++ (s.intake.sampler.map Prod.fst)).foldl
    (fun s n =>
      if edgeSelected s n then (if s.edge n = 0 then s else presentWired n kAssert (s.edge n) (s.setEdge n 0))
      else
        match decide (srcMode (srcNow s n) = 1), (s.sampler n).out with
        | true, some l => presentWired n (if l then kLevelHi else kLevelLo) 1 (s.setSampler n { s.sampler n with presented := l, out := none })
        | _, _ => s) s

/-- Every queued message of queue `q` is applied. -/
def drainQueue (q : Nat) (s : State) : State :=
  (s.queue q).foldl (fun s m => applyMsg m (passMarkers q s)) (s.setQueue q [])

/-- Step 2 of Table 17-5. -/
def drainIntake (s : State) : State :=
  let s1 := drainWired (drainFolders s)
  (s1.intake.queue.map Prod.fst).foldl (fun s q => drainQueue q s) s1

/-- The granted writes of a channel launch, at most `n` of them. -/
def launchAll (c : Nat) : Nat → State → State
  | 0, s => s
  | n + 1, s =>
    match s.grants c, freeTag s c with
    | g :: rest, some tag => launchAll c n (launchOne c g tag (s.setGrants c rest))
    | _, _ => s

/-- Step 3 of Table 17-5. -/
def drainGrants (s : State) : State :=
  if s.log.fatal then s else (List.range 4).foldl (fun s c => launchAll c (s.grants c).length s) s

/-- The words and target of a copy, where there is something to copy. -/
def copyWords (s : State) : CopyItem → Option (List DW × WTarget)
  | .entry e no => (s.logEnt e).map fun x => (logWords x e false (errRingPhase s), .logEntry e no)
  | .logfail n => some (logWords (logfailEnt s n) 0 true (errRingPhase s), .logOther)
  | .bypass w => some (logWords w 0 true (errRingPhase s), .logOther)

/-- Forms the first copy that waits, as an own write of class 011 (R290). -/
def formCopy (s : State) : State :=
  if !errRingOn s || s.log.faulted || errRingFull s || s.log.fatal then s
  else
    match s.log.copyQ with
    | [] => s
    | c :: rest =>
      let s1 := s.upLog fun l => { l with copyQ := rest }
      match copyWords s c with
      | none => s1
      | some (w, t) => (pushCopy c t (errRingAddr s) (dataOf w) s1).upLog fun l => { l with prod := l.prod + 1 }

/-- Step 4 of Table 17-5: every copy that has room is written on WCH0. -/
def drainCopies (s : State) : State :=
  let s1 := s.log.copyQ.foldl (fun s _ => formCopy s) s
  let own := s1.dlv.own
  own.foldl
    (fun s o =>
      match decide (o.cls = 3), freeTag s 0 with
      | true, some tag => launchOwn 0 o tag (s.upDlv fun d => { d with own := d.own.erase o })
      | _, _ => s) s1

/-- A granted write, or a notification, waits for a completion tag: it can launch only once the drain is cut short (R30, R308). -/
def drainLeft (s : State) : Bool :=
  !s.log.fatal && (List.range 4).any fun c => !(s.grants c).isEmpty || !(s.noteQ c).isEmpty

/-- WARM_DRAIN_COMPLETE: what the drain still holds is done, unless it is cut short; then the outputs take their reset values (R48,
R308). -/
def doWarmDrainComplete (cut : Bool) (s : State) : State :=
  if s.pwr.phase = .drain then
    if cut then holdReset true false s
    else
      let s1 := drainGrants (drainIntake s)
      if drainLeft s1 then s1 else holdReset false false (if s1.log.fatal then s1 else drainCopies s1)
  else s

def execWarmDrainComplete (cut : Bool) (s : State) : Host.Outcome State Fault Refusal :=
  .next (s.run (doWarmDrainComplete cut))

/-! ### Release (R309–R311) -/

/-- Relayed records that wait as requests go back to the retained inbox. -/
def relayedBack (s : State) : State :=
  let qs := (entering s ++ ungranted s ++ grantedReqs s).filter fun q => match q.kind with | .relayed _ _ => true | _ => false
  qs.reverse.foldl (fun s q => backOut q s) s

/-- The FENCEs that a reset keeps: after a drain that completed, each admitted FENCE waits for its request again (R13); a drain cut short
or a brown-out loses them with the other doorbells. -/
def keptFences (s : State) : List Fence :=
  if s.pwr.drainCut || s.pwr.brown then [] else s.intake.fences.map fun f => { f with requested := false }

/-- Queues, Hamper, Folder, buckets, residue and tags are emptied (Table 17-6), and DLV's own registers that no table keeps take their
reset values (log entry 25). -/
def emptyQueues (s : State) : State :=
  (s.upIntake fun i => { i with folder := [], queue := [], fences := keptFences s }).upDlv fun d =>
    { d with sel := [], lq := [], pace := [], hamper := [], members := [], mc := [], own := [], grants := [], count := [], outst := [],
             noteQ := [], bucket := [], poolBucket := 0, starved := [], periodRecs := 0, short := false, shortTag := 0,
             lastShort := false, rstgSel := 0, rstg := none, rstgResult := 0 }

/-- An ISSUED source at release: the outcome of its withdraw, or a return flagged DUP (R310). -/
def releaseSource (k : Nat) (s : State) : State :=
  let d := s.dyn k
  if d.st = .issued then
    if d.withdraw.isSome then settleWin k s
    else returnSource k (s.setDyn k { d with ev := d.ev.map fun e => { e with dup := true } })
  else s

/-- A half at release: RESV 0, FULL recomputed. -/
def releaseHalf (r : Nat) (s : State) : State :=
  let s1 := s.setHalf r { s.half r with resv := 0 }
  s1.setHalf r { s1.half r with full := decide (halfSize s1 r ≤ usedOf s1 r) }

/-- Counters that a warm reset keeps: the tenant pages' and GLB_TIME_BACKSTEP (Table 17-6). -/
def keptCounter (off : Nat) : Bool := decide (0x100000 ≤ off) || decide (off = backstepOff)

/-- The Mending Log after release: empty, LSEQ and the error ring's registers kept. -/
def releaseLog (l : Log) : Log :=
  { l with ents := [], lost := [], copyQ := [], bypass := false, ucbOpen := false, logfail := [], fatal := false, fault := false }

/-- The pair and its link at release: training again, or SOLO without lanes (R195, Table 17-6). -/
def releaseTwin (lanes : BitVec 4) (w : Twin) : Twin :=
  { w with state := if lanes = 0 then .solo else .training, absent := w.absent || decide (lanes = 0), mirrorQ := [], notice := [],
           snapPhase := false, partner := none, rewash := none, rd := [], lnEn := 0, lnRdy := 0, lanes := 0, ownDrop := 0, peerDrop := 0,
           laneWords := [], laneBad := [], txPos := 0, round := 0, txNext := none, rxLanes := 0, rxPos := 0, rxRound := 0, rxQ := [],
           rxFlit := [], deskewed := 0, failedTrain := 0, addedAt := [], outUntil := [] }

/-- The links: Seam-T from nothing, each Seam-R session training without a session to resume, so that it Rinses (R310). -/
def releaseLinks (l : Tbl Link) : Tbl Link :=
  (l.filter fun p => p.1 ≠ 0 && p.2.st ≠ .down).map fun p => (p.1, { linkD 0 with st := .training })

/-- Scan state at release: CAPTURE falls where a half is enabled, and no SCAN_RESUME is written. -/
def releaseScan (s : State) : State :=
  let en := s.dlv.ring.any fun p => halfEn s p.1
  let s1 := if s.glb.capture && en then endCapture s else s
  if scanCause s1 then s1.upGlb fun g => { g with ranking := false, stopped := true }
  else s1.upGlb fun g => { g with ranking := true, stopped := false }

/-- A change of profile in progress ends: ACTIVE takes REQ, and the events of levels 12–15 follow it as at step 5 of a change (R60, R151). -/
def releaseProfile (s : State) : State :=
  let old := s.glb.prfActive
  let s1 := if s.glb.prfBusy then s.upGlb fun g => { g with prfActive := g.prfReq, prfBusy := false } else s
  let s2 := (s1.upPwr fun p => { p with steerLow := decide (s1.glb.prfActive = pFrugal) }).upDlv fun d => { d with ceil := 16 * ceilNow s1 }
  (listedSources s2).foldl (fun s k => exemptOne old s1.glb.prfActive k s) s2

/-- Each session of Seam-R that was open Rinses: counted and logged (R310, R224). -/
def rinseSessions (l : Tbl Link) (s : State) : State := (l.map Prod.fst).foldl (fun s k => if k = 0 then s else noteRinse (relaySeam k) s) s

/-- Twifomon restarts with its restart count cleared (R295, R310); a commit that has not flipped is gone. -/
def restartFw (s : State) : State :=
  if s.fw.phase = .boot then s
  else
    restartAll (s.upFw fun f =>
      { f with phase := .restarting, coreRestart := false, activateMbx := none, asks := f.asks.map fun x => { x with mbx := none },
               commit := match f.commit with | some c => if c.stage = .ack then some c else none | none => none })

/-- WARM_RESET_RELEASE and its kind: LAST 01 after RST_WARM_N, 10 after a brown-out. -/
def release_ (x : Straps) (last : BitVec 2) (s : State) : State :=
  let s1 := (relayedBack s).upRelay fun y => { y with stage := [] }
  let s2 := emptyQueues (s1.upTwin (releaseTwin (strapsOf x).lanes))
  let s3 := releaseProfile (s2.upPwr fun p =>
    { p with phase := .run, straps := strapsOf x, supplyOk := true, rstWarmN := true, brown := false, last, warms := p.warms + 1 })
  let s4 := (listedSources s3).foldl (fun s k => releaseSource k s) s3
  let s5 := (s4.dlv.half.map Prod.fst).foldl (fun s r => releaseHalf r s) s4
  let s6 := (s5.upLog releaseLog).upCtr fun c => { c with cnt := c.cnt.filter fun p => keptCounter p.1, val := [] }
  let s7 := (releaseScan s6).upLink releaseLinks
  let s8 := rinseSessions s7.link s7
  fencesGo (bootPower (restartFw (s8.upFw fun f => { f with restarts := [], asks := [], asked := [] })))

/-! ### Boot (R260, R264, R306) -/

/-- M(n) from M(n−1) and a digest (R260). -/
def extend (m d : BitVec 384) : BitVec 384 := BitVec.ofNat 384 (natOfBytes (sha384 (bytesOf m 48 ++ bytesOf d 48)))

/-- Extends the chain with an image and its manifest. -/
def extendImage (img : BitVec 384) (man : BitVec 384) (s : State) : State :=
  s.upFw fun f => { f with chain := extend (extend f.chain img) man, extends_ := f.extends_ + 2 }

/-- Length and signature are good (R264). -/
def imageOk (i : FwImage) : Bool := i.readOk && i.sigOk && decide (i.lenKiB.toNat ≤ 192)

/-- One more fetch attempt (Table 17-4). -/
def countAttempt (s : State) : State := s.upFw fun f => { f with attempts := holdInc f.attempts 1 }

/-- The ROM's reads of the image at GLB_FW_BASE (R306). -/
def bootRead (ok : Bool) (kib : Nat) (s : State) : State := readImage (s.pwr.straps.fwBase ++ 0#12) ok kib s

/-- The ROM waits to boot. -/
def booting (s : State) : Bool := decide (s.fw.phase = .boot) && powered s && domOn s dMgt

/-- FW_BOOT_READY: the image is read, verified and measured, and runs, and the mailboxes are READY (R306); STAGE passes through verify and
measure within the row (log entry 134). -/
def doFwBootReady (i : FwImage) (s : State) : State :=
  if booting s && imageOk i then
    let s1 := (bootRead true i.lenKiB.toNat (countAttempt s)).upFw fun f =>
      { f with phase := .ready, stage := 4, fetchErr := false, sigBad := false, mbxIf := 0x03, version := i.version, svn := i.svn,
               image := i.digest, manifest := i.manifest, chain := extend 0 Config.romDigest, extends_ := 1 }
    extendImage i.digest i.manifest s1
  else s

def execFwBootReady (i : FwImage) (s : State) : Host.Outcome State Fault Refusal := .next (s.run (doFwBootReady i))

/-- FW_BOOT_RETRY: an attempt has failed; the ROM waits 100 ms (R306, Table 17-4). -/
def doFwBootRetry (fetchErr sigBad : Bool) (s : State) : State :=
  if booting s && (fetchErr || sigBad) then (bootRead false 0 (countAttempt s)).upFw fun f => { f with stage := 5, fetchErr, sigBad } else s

def execFwBootRetry (fetchErr sigBad : Bool) (s : State) : Host.Outcome State Fault Refusal :=
  .next (s.run (doFwBootRetry fetchErr sigBad))

/-! ### Pending scan (R46, R119–R121) -/

/-- TEST_MODE_SELECT: a cause of pending scan begins or ends (R46). -/
def doTestModeSelect (on : Bool) (s : State) : State := s.upGlb fun g => { g with test := on }

def execTestModeSelect (on : Bool) (s : State) : Host.Outcome State Fault Refusal := .next (s.run (doTestModeSelect on))

/-- An event's request that has no grant. -/
def isEvent (q : Req) : Bool :=
  match q.kind with
  | .event _ => true
  | _ => false

/-- A multicast event none of whose records has launched or been granted is returned whole (Table 6-8). -/
def returnMcast (k : Nat) (s : State) : State :=
  if mcStarted s k then s
  else
    let qs := (ungranted s).filter (ofMcast k)
    let s1 := (removeReqs (ofMcast k) s).setMc k none
    let s2 := qs.foldl (fun s q => match q.res, reqHalf q with | true, some r => release r s | _, _ => s) s1
    bump (dlvPage + 0x088) (settleWin k s2)

/-- Step 2 of Table 6-8. -/
def returnUngranted (s : State) : State :=
  let qs := (entering s ++ ungranted s).filter isEvent
  let s1 := (List.range 16).foldl (fun s l => s.setSelQ l ((s.selQ l).filter fun q => !isEvent q)) (removeReqs isEvent s)
  let s2 := qs.foldl (fun s q => returnReq q s) s1
  (mcSources s2).foldl (fun s k => returnMcast k s) s2

/-- SCAN_ENTRY: ranking stops, and ungranted requests of events are returned (R119). -/
def doScanEntry (s : State) : State :=
  if scanCause s && s.glb.ranking && !s.log.fatal && accepting s then
    settleMbx (presentAll (returnUngranted (s.upGlb fun g => { g with ranking := false })))
  else s

def execScanEntry (s : State) : Host.Outcome State Fault Refusal := .next (s.run doScanEntry)

/-- Every granted record write, and every notification, has launched; so have the requests in the relay stage. -/
def scanDrained (s : State) : Bool :=
  ((List.range 4).all fun c => ((s.grants c).all fun g => match g with | .own _ => true | .recs _ _ _ _ _ _ => false) && (s.noteQ c).isEmpty) &&
    !s.relay.stage.any isEvent

/-- SCAN_STOPPED (Table 6-8, step 4). -/
def doScanStopped (s : State) : State :=
  if scanCause s && !s.glb.ranking && scanDrained s then settleMbx (s.upGlb fun g => { g with stopped := true }) else s

def execScanStopped (s : State) : Host.Outcome State Fault Refusal := .next (s.run doScanStopped)

/-- What the end of a scan leaves a half owing (R121). -/
def oweScan (seq : BitVec 16) (r : Nat) (s : State) : State :=
  s.setHalf r { s.half r with scanOwed := if halfEn s r then some (seq, s.glb.now) else none }

/-- SCAN_END: with no cause left and the granted writes launched (Table 6-8), SEQ is incremented, STOPPED falls, each enabled half owes a SCAN_RESUME, and ranking restarts (R121). -/
def doScanEnd (s : State) : State :=
  if !scanCause s && !s.glb.ranking && scanDrained s && accepting s then
    let q := s.glb.scanSeq + 1
    let s1 := s.upGlb fun g => { g with scanSeq := q, stopped := false, ranking := true }
    afterDlv ((unionKeys (s1.dlv.ring.map Prod.fst) (s1.dlv.half.map Prod.fst)).foldl (fun s r => oweScan q r s) s1)
  else s

def execScanEnd (s : State) : Host.Outcome State Fault Refusal := .next (s.run doScanEnd)

/-! ### Drain and merge (R185–R187, R307) -/

/-- A message stamped before the flip still waits. -/
def oldMessages (s : State) : Bool :=
  (s.intake.queue.any fun p => p.2.any fun m => m.epoch ≠ s.glb.epoch) ||
    s.intake.folder.any fun p => p.2.any fun e => 0 < e.count && e.m.epoch ≠ s.glb.epoch

/-- DRAIN_COMPLETE: every message stamped before the flip has been applied (R185). -/
def doDrainComplete (s : State) : State :=
  if s.glb.draining && !oldMessages s then settleMbx (mergeDone (s.upGlb fun g => { g with draining := false })) else s

def execDrainComplete (s : State) : Host.Outcome State Fault Refusal := .next (s.run doDrainComplete)

/-- Carry entries in use. -/
def carriesUsed (s : State) : Nat :=
  (s.slc.dyn.map fun p =>
    (match p.2.ev with | some e => if e.carry.isSome then 1 else 0 | none => 0) +
      (match p.2.rep with | some e => if e.carry.isSome then 1 else 0 | none => 0)).sum

/-- The event needs a carry when the shadow entry of epoch `x` is merged: it is of an earlier epoch. A captured event takes none (R307). -/
def needsCarry (x : BitVec 16) (e : Ev) : Bool := e.carry.isNone && !e.capture && !atOrAfter e.epoch x

/-- An event with its carry. -/
def carryEv (x : BitVec 16) (old : SrcEntry) (e : Ev) : Ev := if needsCarry x e then { e with carry := some old } else e

/-- Carries that the merge of source `k` takes (R186). -/
def carriesNeeded (s : State) (k : Nat) (x : BitVec 16) : Nat :=
  ((s.dyn k).ev.toList ++ (s.dyn k).rep.toList).countP (needsCarry x)

/-- A FENCE of an earlier epoch than the merged entry's keeps the entry of its own epoch (R189, R190). -/
def carryFence (k : Nat) (x : BitVec 16) (old : SrcEntry) (f : Fence) : Fence :=
  if f.src.toNat = k ∧ f.carry.isNone ∧ !atOrAfter f.epoch x then { f with carry := some old } else f

/-- Writes the shadow entry of source `k` into its bank (R186). -/
def mergeOne (k : Nat) (sh : Shadow) (s : State) : State :=
  let old := s.main k
  let d := s.dyn k
  let d1 := { d with ev := d.ev.map (carryEv sh.epoch old), rep := d.rep.map (carryEv sh.epoch old), tagPort := srcPort sh.entry }
  let s1 := (((s.setDyn k d1).setMain k sh.entry).setShadow k none).upIntake fun i =>
    { i with fences := i.fences.map (carryFence k sh.epoch old) }
  match d.ev with
  | some e => if e.capture && !s.glb.capture then dropCaptured k s1 else s1
  | none => s1

/-- MERGE_ENTRY: once drain is over, with the slice awake and a carry free where one is needed (R186, R187). -/
def doMergeEntry (k : Nat) (stolen : Bool) (s : State) : State :=
  let sl := sliceOf (BitVec.ofNat 18 k)
  if s.glb.draining || !accepting s then s
  else
    match s.shadow k with
    | none => s
    | some sh =>
      if !domOn s (dSlc sl) then wake (dSlc sl) s
      else if 16384 < carriesUsed s + carriesNeeded s k sh.epoch then s
      else
        let s1 := if stolen then perf (dSlc sl) 0x24 (bump (slcPage sl + 0x048) s) else s
        settleMbx (mergeDone (mergeOne k sh s1))

def execMergeEntry (src : BitVec 18) (stolen : Bool) (s : State) : Host.Outcome State Fault Refusal :=
  .next (s.run (doMergeEntry src.toNat stolen))

/-! ### Scrub (R332) -/

/-- The kind of an uncorrectable error by the unit that holds the word (Table 16-2); `log` says that the word is the log's own (R291). Any
other word of unit 0x0, which no narrower unit names, holds requests (log entry 28). -/
def scrubKind (u : ErrUnit) (log : Bool) : ErrKind :=
  if log then .logUe else
  match u.typ.toNat with
  | 0x1 => .srcUe
  | 0x2 => .ringUe
  | 0x3 => .regionUe
  | 0x4 => .slotUe
  | 0x5 => .entryUe
  | 0x6 => .keyUe
  | 0x8 => .tallyUe
  | 0xC => .journalUe
  | _ => .queueUe

/-- DETAIL of the SRAM kinds (Table 16-3). -/
def sramDetail (store word : DW) (syn : Byte) : BitVec 256 :=
  (store.setWidth 256) ||| ((word.setWidth 256) <<< 32) ||| ((syn.setWidth 256) <<< 64)

/-- The domain whose scrubber reads the words of a unit (Table 17-1, log entry 28). -/
def unitDom (u : ErrUnit) : Nat :=
  match u.typ.toNat with
  | 0x1 => dSlc (sliceOf (fld u.val 0 18))
  | 0x2 | 0x5 | 0xE => dDlv
  | 0x4 => dSlc (fld u.val 13 3).toNat
  | 0x6 => dCry
  | 0xB => if bitAt u.val 12 then dSmr else dSmt
  | 0xC | 0xD => dMgt
  | _ => 0

/-- A powered domain holds a word of the unit: a gated one is not scrubbed (R332). A DIP region has a copy in each DIP; words of unit 0x0
are the log's, in AON, or requests, in DLV. -/
def scrubbed (s : State) (u : ErrUnit) (log : Bool) : Bool :=
  (powered s || decide (s.pwr.phase = .drain)) &&
    (if u.typ = 3 then
      (if fld u.val 13 2 = 0 then (List.range 16).any fun n => domOn s (dDip n) else decide (fld u.val 13 2 = 1) || domOn s dDlv)
    else if u.typ = 0 then log || domOn s dDlv
    else decide (unitDom u = 0) || domOn s (unitDom u))

/-- SCRUB_WORD: a clean word is left, a correctable one written back and logged, an uncorrectable one handled as on an access (R332). -/
def doScrubWord (u : ErrUnit) (store word : DW) (log : Bool) (r : ScrubResult) (s : State) : State :=
  if !scrubbed s u log then s
  else
    match r with
    | .clean => s
    | .correctable syn => logCEKind .sramCe u (sramDetail store word syn) s
    | .uncorrectable syn =>
      afterDlv (detect (scrubKind u log) (if scrubKind u log = .queueUe then uBlock else u) (sramDetail store word syn) s)

def execScrubWord (u : ScrubUnit) (store word : DW) (r : ScrubResult) (s : State) : Host.Outcome State Fault Refusal :=
  .next (s.run (doScrubWord u.unit store word u.log r))

end Sys2Proof.Machine
end

