-- ==== Sys2Proof/Machine/ErrCore.lean ====
section
/-! DEFINITION. The commands of errors, of the error log and of the Maluri core (file 16). -/

namespace Sys2Proof.Machine

/-! ### Detection (R283, R285) -/

/-- The unit types that Table 16-2 gives a kind. -/
def kindUnits (k : ErrKind) : List Nat :=
  match k with
  | .violation => [0x7]
  | .sramCe => [0x0, 0x1, 0x2, 0x3, 0x4, 0x5, 0x6, 0x8, 0xC]
  | .timeStall | .portParity => [0xA]
  | .guarShort => [0xE]
  | .mbxSlow | .journalUe => [0xC]
  | .twinTakeover | .seamRetrain | .seamDown | .seamRinse | .seamLaneDrop | .seamLaneAdd | .seamMismatch | .bundleResend | .relayReject
  | .relayPathFail => [0xB]
  | .relayDiscard | .ringUe => [0x2]
  | .coreDfault | .coreLockstep | .coreWdog | .fwHalt => [0xD]
  | .srcUe => [0x1]
  | .writeErr => [0x2, 0x9]
  | .regionUe => [0x3]
  | .slotUe => [0x4]
  | .entryUe => [0x5]
  | .keyUe => [0x6]
  | .tallyUe => [0x8]
  | .zeroFail => [0x1, 0x2, 0x3, 0x4, 0x5, 0x6, 0x8]
  | .queueUe | .controlUe | .logUe => [0x0]
  | .pwrTimeout => [0xF]

/-- AON works: the supplies are valid and the block has started (R293). -/
def aonUp (s : State) : Bool := powered s || decide (s.pwr.phase = .drain)

/-! ### The log (R286, R287, R290) -/

/-- ERROR_RING_COPY: the first copy that waits is formed once there is room (R290); none while FATAL (R293). -/
def doErrorRingCopy (s : State) : State := if aonUp s then formCopy s else s

def execErrorRingCopy (s : State) : Host.Outcome State Fault Refusal := .next (s.run doErrorRingCopy)

/-- Acknowledges entry `e` (R286): it is copied, or with the error ring disabled freed at once, and a summary of lost errors follows
(R287). -/
def ackEntry (e : Nat) (s : State) : State :=
  match s.logEnt e with
  | some x =>
    if x.acked then s
    else if errRingOn s then askCopy e (s.setLogEnt e (some { x with acked := true }))
    else summarise (s.setLogEnt e none)
  | none => s

/-- CE_AUTO_ACK: 1 ms after the entry's LAST (R286). -/
def doCeAutoAck (e : Nat) (s : State) : State :=
  match s.logEnt e with
  | some x =>
    if x.cls = clsCE && x.form = 0 && !s.glb.stalled && decide (x.last.toNat + 1000000 ≤ s.glb.now.toNat) then ackEntry e s else s
  | none => s

def execCeAutoAck (e : Fin 64) (s : State) : Host.Outcome State Fault Refusal := .next (s.run (doCeAutoAck e.val))

/-- LOST_SUMMARY: with an entry free and a LOST counter nonzero (R287). -/
def doLostSummary (s : State) : State := if s.log.bypass then s else summarise s

def execLostSummary (s : State) : Host.Outcome State Fault Refusal := .next (s.run doLostSummary)

/-! ### The Maluri core (R294, R295) -/

/-- Ten minutes of the time port. -/
def restartWindow : Nat := 600000000000

/-- Restarts in the last 10 minutes. -/
def recentRestarts (s : State) : List (BitVec 64) :=
  s.fw.restarts.filter fun t => decide (s.glb.now.toNat < t.toNat + restartWindow)

/-- A halt: FW_HALT is logged (R295). Commands that ran stay unanswered (R9, R170). -/
def halt (s : State) : State := logKind .fwHalt uCore 0 (haltFw s)

/-- A fault of the core: a restart, or a halt where it would be the third within 10 minutes. A fault during a restart is part of the same
restart; before the first READY the ROM starts over (log entry 29). -/
def coreFails (s : State) : State :=
  match s.fw.phase with
  | .boot | .restarting | .halted => s
  | .ready | .exchanging =>
    if 2 ≤ (recentRestarts s).length then halt (s.upFw fun f => { f with activateMbx := none })
    else restartFw (s.upFw fun f => { f with restarts := s.glb.now :: recentRestarts s })

/-- The core runs, so it can fault. -/
def coreRuns (s : State) : Bool := powered s && domOn s dMgt && decide (s.fw.phase ≠ .halted)

/-- CORE_FAULT: CORE_DFAULT with the stack pointer in DETAIL, or CORE_LOCKSTEP (R294). -/
def doCoreFault (f : CoreFaultKind) (s : State) : State :=
  if coreRuns s then
    match f with
    | .dfault sp => coreFails (logCEKind .coreDfault uCore (sp.setWidth 256) s)
    | .lockstep => coreFails (logCEKind .coreLockstep uCore 0 s)
  else s

def execCoreFault (f : CoreFaultKind) (s : State) : Host.Outcome State Fault Refusal := .next (s.run (doCoreFault f))

/-- CORE_WDOG: the watchdog was not serviced (R294). -/
def doCoreWdog (s : State) : State := if coreRuns s then coreFails (logCEKind .coreWdog uCore 0 s) else s

def execCoreWdog (s : State) : Host.Outcome State Fault Refusal := .next (s.run doCoreWdog)

/-- ERROR_DETECTED: the kind's first outcome, and its place in the log (R283, R285, R291). A fault of the core restarts it (R294). -/
def doErrorDetected (k : ErrKind) (u : ErrUnit) (detail : BitVec 256) (s : State) : State :=
  if aonUp s && (kindUnits k).contains u.typ.toNat then
    match k with
    | .coreDfault | .coreLockstep | .coreWdog => if coreRuns s then coreFails (logCEKind k uCore detail s) else s
    | _ => afterDlv (detect k u detail s)
  else s

def execErrorDetected (k : ErrKind) (u : ErrUnit) (detail : BitVec 256) (s : State) : Host.Outcome State Fault Refusal :=
  .next (s.run (doErrorDetected k u detail))

/-- READY rises: presumed commits flip, and a commit whose partner was lost meanwhile ends (R181, R310); what waits goes on. -/
def fwUp (s : State) : State :=
  let s1 := presume (s.upFw fun f => { f with phase := .ready, coreRestart := false })
  settleMbx (if isPaired s1 then s1 else finishRewash (lossRun s1))

/-- FW_RESTART_READY: step 4 of Table 16-8, or a halt where step 3's verification fails (R294). -/
def doFwRestartReady (verified : Bool) (s : State) : State :=
  if s.fw.phase = .restarting ∧ powered s = true ∧ domOn s dMgt = true then (if verified then fwUp s else halt s) else s

def execFwRestartReady (verified : Bool) (s : State) : Host.Outcome State Fault Refusal :=
  .next (s.run (doFwRestartReady verified))

end Sys2Proof.Machine
end

