-- ==== Sys2Proof/Machine/Profile.lean ====
section
/-! DEFINITION. A change of profile (file 03, R60 and Table 3-5). -/

namespace Sys2Proof.Machine

/-- Gated slices and DIP4 to DIP15, woken when the block leaves FRUGAL. -/
def frugalDomains : List Nat := (List.range 12).map (fun n => dDip (n + 4)) ++ (List.range 8).map dSlc

/-- Open gather windows close, and their writes launch as they stand, with what reached them while they were open (Table 3-5, step 2;
R141). -/
def shutWindow (g : Grant) : Grant :=
  match g with
  | .recs r qs n _ ep ent => .recs r qs n false ep ent
  | .own o => .own o

/-- Steps 1 to 3 of Table 3-5: with BUSY 0 and REQ different from ACTIVE, a change begins. -/
def startProfile (s : State) : State :=
  if s.glb.prfBusy ∨ s.glb.prfReq = s.glb.prfActive then s
  else
    let s1 := s.upGlb fun g => { g with prfBusy := true, prfNext := g.prfReq }
    let s2 := (List.range 4).foldl (fun s c => s.setGrants c ((s.grants c).map shutWindow)) (joinWindows s1)
    if s.glb.prfActive = pFrugal then frugalDomains.foldl (fun s d => wake d s) s2 else s2

/-- A write of PRF_SEL.REQ (R60). -/
def setProfile (p : BitVec 2) (s : State) : State := startProfile (s.upGlb fun g => { g with prfReq := p })

/-- The effective ceiling under the new C (R160): a ceiling that was cut stays below it. -/
def ceilAfter (s : State) (cut : Bool) : Nat := if cut then min s.dlv.ceil (16 * ceilNow s) else 16 * ceilNow s

/-- Step 5: ACTIVE takes the target, DIP_STEER_LOW follows it, and BUSY falls. -/
def takeProfile (s : State) : State :=
  let old := s.glb.prfActive
  let new := s.glb.prfNext
  let cut := paceCut s
  let s1 := (s.upGlb fun g => { g with prfActive := new, prfBusy := false }).upPwr fun p => { p with steerLow := decide (new = pFrugal) }
  let s2 := s1.upDlv fun d => { d with ceil := ceilAfter s1 cut }
  (listedSources s2).foldl (fun s k => exemptOne old new k s) s2

/-- Step 3 is over: what FRUGAL gated is powered. -/
def awake (s : State) : Bool := s.glb.prfActive ≠ pFrugal || frugalDomains.all fun d => domOn s d

/-- PROFILE_CHANGE_COMPLETE: step 5, then a further change where REQ differs from ACTIVE again (R60). A PRF_SET that wrote REQ while an
earlier change was BUSY answers at this fall of BUSY, before its own change begins: R62 does not say which fall it waits for (DESIGN
CHOICE, log entry 124). -/
def doProfileChangeComplete (s : State) : State :=
  if s.glb.prfBusy && awake s && accepting s then startProfile (settleMbx (takeProfile s)) else s

def execProfileChangeComplete (s : State) : Host.Outcome State Fault Refusal := .next (s.run doProfileChangeComplete)

end Sys2Proof.Machine
end

