-- ==== Sys2Proof/Machine/RegWords.lean ====
section
/-! DEFINITION. The register map (file 18) and what each register reads as. -/

namespace Sys2Proof.Machine

/-- A register of the window. Counters of class K are named by their offset. -/
inductive Reg where
  | glbId | glbStrap | fwBase | boot | resetR | pwrStat | prfSel | scan | epoch | twin | timeNow | timeStat
  | weight (k : Nat) | meas (k : Nat) | measCnt
  | errBase | errCons | errProd | errStat | errSum | coreCtl | errLost | logfail (n : Nat) | logWord (e w : Nat)
  | counter (off : Nat) | tenCounter (t off : Nat) | poolUsed (sl : Nat)
  | maskOp | srcSel | srcEntry | srcCtl
  | lvlMap | arbCfg | rstgSel | rstgW (k : Nat) | rstgCtl | paceCfg | paceStat
  | stgSel | stgW (k : Nat) | gtUpd
  | linkStat | laneCfg | sessSel | sessStat
  | ctrSel (d : Nat) | ctrVal (i : Nat) | cryStat
  | mbxCmd (m : Mbx) | mbxRsp (m : Mbx) | mbxStat (m : Mbx) | mbxNote (m : Mbx) | mbxArg (m : Mbx) (i : Nat) | mbxRes (m : Mbx) (i : Nat)
  | lcons (t : Nat) | lprod (t : Nat) | lstat (t : Nat) | tenStat (t : Nat) | violLast (t w : Nat)
  | lnCons (r : Nat) | lnRunlvl (r : Nat) | lnEoi (r : Nat) | lnProd (r : Nat) | lnStat (r : Nat)
  | tkAcq (n : Nat) | tkRel (n : Nat) | tkLease (n : Nat) | tkStat (n : Nat)
  | scanWord (g : Nat)
deriving DecidableEq, Repr

/-! ### Offsets (Tables 18-1 to 18-7) -/

/-- Registers of the global page (Table 18-2). -/
def globalReg (o : Nat) : Option Reg :=
  match o with
  | 0x0000 => some .glbId | 0x0010 => some .glbStrap | 0x0018 => some .fwBase | 0x0020 => some .boot | 0x0028 => some .resetR
  | 0x0030 => some .pwrStat | 0x0040 => some .prfSel | 0x0048 => some .scan | 0x0050 => some .epoch | 0x0058 => some .twin
  | 0x0060 => some .timeNow | 0x0068 => some (.counter 0x68) | 0x0070 => some .timeStat
  | 0x0080 => some (.weight 0) | 0x0088 => some (.weight 1) | 0x0090 => some (.weight 2) | 0x0098 => some (.weight 3)
  | 0x0100 => some (.meas 0) | 0x0108 => some (.meas 1) | 0x0110 => some (.meas 2) | 0x0118 => some (.meas 3)
  | 0x0120 => some (.meas 4) | 0x0128 => some (.meas 5) | 0x0130 => some .measCnt
  | 0x2000 => some .errBase | 0x2008 => some .errCons | 0x2010 => some .errProd | 0x2018 => some .errStat | 0x2020 => some .errSum
  | 0x2028 => some .coreCtl | 0x2030 => some .errLost
  | 0x2040 => some (.logfail 0) | 0x2048 => some (.logfail 1) | 0x2050 => some (.logfail 2) | 0x2058 => some (.logfail 3)
  | _ => if 0x3000 ≤ o ∧ o < 0x4000 then some (.logWord ((o - 0x3000) / 64) (o % 64 / 8)) else none

/-- Registers of a mailbox page up to its result area (Table 9-1). -/
def mbxReg (m : Mbx) (o : Nat) : Option Reg :=
  if o = 0 then some (.mbxCmd m)
  else if o = 8 then some (.mbxRsp m)
  else if o = 0x10 then some (.mbxStat m)
  else if o = 0x18 then some (.mbxNote m)
  else if 0x100 ≤ o ∧ o < 0x500 then some (.mbxArg m ((o - 0x100) / 8))
  else if 0x500 ≤ o ∧ o < 0x800 then some (.mbxRes m ((o - 0x500) / 8))
  else none

/-- Registers of a slice page. -/
def sliceReg (sl o : Nat) : Option Reg :=
  if o = 0 then some (.poolUsed sl) else if o ≤ 0x48 then some (.counter (slcPage sl + o)) else none

/-- Registers of the DLV page. -/
def dlvReg (o : Nat) : Option Reg :=
  match o with
  | 0x00 => some .lvlMap | 0x08 => some .arbCfg | 0x10 => some .rstgSel | 0x18 => some (.rstgW 0) | 0x20 => some (.rstgW 1)
  | 0x28 => some (.rstgW 2) | 0x30 => some (.rstgW 3) | 0x38 => some .rstgCtl | 0x40 => some .paceCfg | 0x48 => some .paceStat
  | _ => if 0x80 ≤ o ∧ o ≤ 0xE8 then some (.counter (dlvPage + o)) else none

/-- Registers of the expert pages (Table 18-7). -/
def expertReg (a : Nat) : Option Reg :=
  let o := a % 0x1000
  if a < 0x20000 then (if o ≤ 0x18 then some (.counter a) else none)
  else if a < 0x28000 then sliceReg ((a - 0x20000) / 0x1000) o
  else if a < 0x29000 then
    match o with
    | 0x00 => some .maskOp | 0x10 => some .srcSel | 0x18 => some .srcEntry | 0x20 => some .srcCtl | _ => none
  else if a < 0x30000 then none
  else if a < 0x31000 then dlvReg o
  else if a < 0x40000 then none
  else if a < 0x41000 then
    match o with
    | 0x00 => some .stgSel | 0x08 => some (.stgW 0) | 0x10 => some (.stgW 1) | 0x18 => some (.stgW 2) | 0x20 => some .gtUpd | _ => none
  else if a < 0x50000 then none
  else if a < 0x51000 then
    if o ≤ 0x68 ∨ (0x80 ≤ o ∧ o ≤ 0xB8) then some (.counter a)
    else if o = 0x100 then some .linkStat else if o = 0x108 then some .laneCfg else none
  else if a < 0x60000 then none
  else if a < 0x61000 then
    if 0x28 ≤ o ∧ o ≤ 0x88 then some (.counter a)
    else if o = 0x100 then some .sessSel else if o = 0x108 then some .sessStat else none
  else if a < 0x70000 then none
  else if a < 0x71E00 then
    let d := (a - 0x70000) / 0x100
    let p := a % 0x100
    if p = 0 then some (.ctrSel d) else if 0x40 ≤ p ∧ p ≤ 0x78 then some (.ctrVal (8 * d + (p - 0x40) / 8)) else none
  else if a = 0x78000 then some .cryStat
  else if a = 0x78008 then some (.counter a)
  else none

/-- Registers of tenant `t`'s page (Table 18-6). -/
def tenantReg (t o : Nat) : Option Reg :=
  if o = 0x800 then some (.lcons t)
  else if o = 0x808 then some (.lprod t)
  else if o = 0x810 then some (.lstat t)
  else if 0x840 ≤ o ∧ o ≤ 0x870 then some (.tenCounter t (tenPage t + o))
  else if o = 0xE00 then some (.tenStat t)
  else if o = 0xF00 then some (.counter (tenPage t + o))
  else if 0xF20 ≤ o ∧ o < 0xF40 then some (.violLast t ((o - 0xF20) / 8))
  else mbxReg (.ten (BitVec.ofNat 8 t)) o

/-- Registers of ring `r`'s control entry (Table 18-5). -/
def ringReg (r o : Nat) : Option Reg :=
  match o with
  | 0x00 => some (.lnCons r) | 0x08 => some (.lnRunlvl r) | 0x10 => some (.lnEoi r) | 0x18 => some (.lnProd r) | 0x20 => some (.lnStat r)
  | _ => none

/-- Registers of Tack `n` (Table 16-10). -/
def tackReg (n o : Nat) : Option Reg :=
  match o with
  | 0x00 => some (.tkAcq n) | 0x08 => some (.tkRel n) | 0x10 => some (.tkLease n) | 0x18 => some (.tkStat n) | _ => none

/-- The register at the 8-byte-aligned offset `a`; none for a reserved range, the doorbell window among them (R90, R312, R313). -/
def regAt (a : Nat) : Option Reg :=
  if a < 0x10000 then globalReg a
  else if a < 0x80000 then expertReg a
  else if a < 0x88000 then mbxReg (.ctl ⟨(a - 0x80000) / 0x1000 % 8, Nat.mod_lt _ (by decide)⟩) (a % 0x1000)
  else if a < 0x100000 then none
  else if a < 0x200000 then tenantReg ((a - 0x100000) / 0x1000) (a % 0x1000)
  else if a < 0x400000 then ringReg ((a - 0x200000) / 64) (a % 64)
  else if a < 0x410000 then tackReg ((a - 0x400000) / 64) (a % 64)
  else if a < 0x800000 then none
  else if a < 0x808000 then some (.scanWord ((a - 0x800000) / 8))
  else none

/-! ### Ring control (Tables 6-6, 7-5 to 7-7) -/

def lnConsWord (h : Half) : Reg64 := at64 h.cons 0 ||| at64 (b1 h.arm) 31
def lnProdWord (s : State) (r : Nat) : Reg64 :=
  at64 (s.half r).prod 0 ||| at64 (b1 (phaseOf (s.half r).prod.toNat (halfSize s r))) 31
def lnStatWord (s : State) (r : Nat) : Reg64 :=
  let h := s.half r
  at64 (b1 h.full) 0 ||| at64 (b1 (h.faulted || h.quarantined)) 1 ||| at64 (b1 (halfQui s r)) 2 ||| at64 (b1 h.nlvl.isSome) 3 |||
    at64 (h.nlvl.getD 0) 4 ||| at64 (b1 (halfEn s r)) 8 ||| at64 h.seq 16

/-! ### Mailboxes and tenants (Tables 9-2 to 9-5, 9-8) -/

def mbxCmdWord (b : Mailbox) : Reg64 :=
  at64 b.opcode 0 ||| at64 b.seq 16 ||| at64 b.argLen 32 ||| at64 (b1 b.note) 43 ||| at64 (b1 b.go) 63
def mbxRspWord (b : Mailbox) : Reg64 :=
  at64 b.status 0 ||| at64 b.rspSeq 16 ||| at64 b.resLen 32 ||| at64 (b1 b.done) 48 ||| at64 (b1 b.replay) 49
def mbxNoteWord (b : Mailbox) : Reg64 := at64 b.noteSrc 0 ||| at64 (b1 b.noteValid) 18
def mbxStatWord (s : State) (m : Mbx) : Reg64 :=
  let b := s.mailbox (mbxKey m)
  let sess := match m with | .ten _ => b.session.isSome | .ctl _ => false
  at64 (b1 (fwReady s)) 0 ||| at64 (b1 (b.busy ≠ .idle)) 1 ||| at64 (b1 b.cmd.isSome) 2 ||| at64 (b1 (fwRestarting s)) 3 |||
    at64 (b1 (s.fw.phase = .halted)) 4 ||| at64 (b1 sess) 5 ||| at64 (BitVec.ofNat 9 (mbxKey m)) 8
def tenStatWord (s : State) (t : Nat) : Reg64 :=
  let x := s.tenantR t
  at64 (b1 x.isSealed) 0 ||| at64 (b1 x.ctrUser) 1 ||| at64 (b1 x.selfCfg) 2 ||| at64 (b1 x.coloured) 3 ||| at64 x.colour 8 ||| at64 x.handle 16

/-! ### The global page -/

def glbIdWord (s : State) : Reg64 := at64 (0x5E17#16) 0 ||| at64 (0x11#8) 16 ||| at64 s.fw.mbxIf 24 ||| at64 (0x0A5B#16) 32
def strapWord (s : State) : Reg64 :=
  let p := s.pwr.straps
  at64 (b1 p.twin) 0 ||| at64 p.blknum 1 ||| at64 p.lanes 12 ||| at64 (BitVec.ofNat 16 (budgetOf s)) 16
def bootWord (s : State) : Reg64 :=
  at64 s.fw.stage 0 ||| at64 (b1 s.fw.fetchErr) 3 ||| at64 (b1 s.fw.sigBad) 4 ||| at64 s.fw.attempts 8
def resetWord (s : State) : Reg64 := at64 s.pwr.last 0 ||| at64 (b1 s.pwr.drainCut) 2 ||| at64 s.pwr.warms 16
def shadowCount (s : State) : Nat := s.slc.shadow.countP fun p => p.2.isSome
def epochWord (s : State) : Reg64 :=
  at64 s.glb.epoch 0 ||| at64 (b1 s.glb.draining) 16 ||| at64 (b1 s.glb.merging) 17 ||| at64 (b1 s.fw.prepared.isSome) 18 |||
    at64 (BitVec.ofNat 15 (shadowCount s)) 32 ||| at64 (BitVec.ofNat 15 (carriesUsed s)) 48

/-- Lanes carrying traffic. -/
def lanesUp (s : State) : Nat := if twinUp s then (lanesOf s.twin.lanes).length else 0
def twinWord (s : State) : Reg64 :=
  let w := s.twin
  at64 (pairCode w.state) 0 ||| at64 (b1 w.absent) 3 ||| at64 (b1 w.lease) 4 ||| at64 (b1 w.takeover) 5 ||| at64 w.tag 8 |||
    at64 (BitVec.ofNat 4 (lanesUp s)) 12 ||| at64 w.takeovers 16 ||| at64 (BitVec.ofNat 13 w.txDirty.length) 32
def timeStatWord (s : State) : Reg64 :=
  at64 (b1 s.glb.stall) 0 ||| at64 (b1 s.glb.stalled) 1 ||| at64 s.glb.stallTag 4 ||| at64 s.glb.stalls 16
def measCntWord (s : State) : Reg64 := at64 s.fw.extends_ 0 ||| at64 (fld s.fw.svn 0 16) 16 ||| at64 s.fw.exchanges 32

/-! ### Errors (Tables 16-5, 16-6, 18-3, 18-4) -/

def errStatWord (s : State) : Reg64 :=
  at64 (b1 s.log.faulted) 0 ||| at64 (b1 (errRingFull s)) 1 ||| at64 (b1 s.log.bypass) 2 ||| at64 (b1 s.log.ucbOpen) 3 |||
    at64 (BitVec.ofNat 7 (s.log.ents.countP fun p => p.2.isSome)) 8 ||| at64 s.log.lostTotal 16 |||
    at64 (BitVec.ofNat 2 (recentRestarts s).length) 32 ||| at64 (b1 (s.fw.phase = .halted)) 34

/-- Unacknowledged entries of a class. -/
def openOf (s : State) (c : BitVec 2) : Nat :=
  s.log.ents.countP fun p => match p.2 with | some x => x.cls = c && !x.acked && x.form = 0 | none => false
def errSumWord (s : State) : Reg64 :=
  at64 (b1 (attn s)) 0 ||| at64 (b1 s.log.fault) 1 ||| at64 (b1 (s.logEnt 63).isSome) 2 |||
    at64 (BitVec.ofNat 7 (if s.log.bypass then 0 else openOf s clsCE)) 8 |||
    at64 (BitVec.ofNat 7 (if s.log.bypass then 0 else openOf s clsUCU)) 16 |||
    at64 (BitVec.ofNat 7 (if s.log.bypass then (if s.log.ucbOpen then 1 else 0) else openOf s clsUCB)) 24 ||| at64 s.log.lseq 32
def errLostWord (s : State) : Reg64 := at64 (s.lostOf 0) 0 ||| at64 (s.lostOf 1) 16 ||| at64 (s.lostOf 2) 32

/-- Word `w` of the Mending Log window's entry `e`; a free entry reads zero. -/
def logWinWord (s : State) (e w : Nat) : Reg64 :=
  match s.logEnt e with
  | some x => qwAt (logWords x e false false) (2 * w)
  | none => 0

/-! ### Expert pages -/

def maskOpWord (s : State) : Reg64 :=
  at64 s.slc.maskSrc 0 ||| at64 (b1 s.slc.maskValue) 18 ||| at64 s.slc.maskResult 19 ||| at64 (b1 s.slc.maskRun.isSome) 63

/-- The entry that the source window shows: the staged one, or the one in force with STATE and PORT as they stand (R324). -/
def srcEntryWord (s : State) : Reg64 :=
  let k := s.slc.selSrc.toNat
  match s.slc.staged with
  | some e => e
  | none => srcWord (srcNow s k) (s.dyn k).st
def srcCtlWord (s : State) : Reg64 := at64 s.slc.srcResult 1 ||| at64 (b1 s.slc.staged.isSome) 3

/-- Word `k` of a ring entry. -/
def ringWord (e : RingEnt) (k : Nat) : Reg64 := if k = 0 then e.w0 else if k = 1 then e.w1 else if k = 2 then e.w2 else e.w3
def paceStatWord (s : State) : Reg64 :=
  at64 (b1 s.dlv.short) 0 ||| at64 s.dlv.shortTag 4 ||| at64 (b1 (paceCut s)) 8 ||| at64 (BitVec.ofNat 16 (s.dlv.ceil / 16)) 16 |||
    at64 (b1 (bandCut s 0)) 32 ||| at64 (b1 (bandCut s 1)) 33 ||| at64 (b1 (bandCut s 2)) 34 ||| at64 (b1 (bandCut s 3)) 35 |||
    at64 (BitVec.ofNat 8 (fracOf s)) 40

/-- The region that GT_STG_SEL selects. -/
def stgKey (s : State) : Option Nat := selKey (s.gates.stgSel.setWidth 32)

/-- What GT_STG_LO, HI and ATTR show: the staged region, or the one in force. Where GT_STG_SEL selects nothing R102 names no value: the
model shows zeros (DESIGN CHOICE, log entry 129). -/
def stgRegion (s : State) : Region :=
  match stgKey s with
  | some k => (s.stagedRegion k).getD (s.region k)
  | none => regZero
def stgWord (s : State) (k : Nat) : Reg64 :=
  let r := stgRegion s
  if k = 0 then r.lo else if k = 1 then r.hi else r.attr
def gtUpdWord (s : State) : Reg64 := at64 (b1 s.gates.go) 0 ||| at64 (b1 (s.gates.staged.any fun p => p.2.isSome)) 1

/-- Codes of R222. -/
def linkCode : LinkState → BitVec 3
  | .down => 0 | .training => 1 | .up => 2 | .retrain => 3 | .grace => 4
def linkWord (x : Link) (lanes : Byte) : Reg64 :=
  at64 (linkCode x.st) 0 ||| at64 lanes 4 ||| at64 (BitVec.ofNat 2 x.fails) 12 ||| at64 x.txSeq 16 ||| at64 x.exp 28 |||
    at64 (BitVec.ofNat 9 x.replay.length) 40 ||| at64 (BitVec.ofNat 7 x.heldF.length) 49

/-- The session that SMR_SESS_SEL names. -/
def selSession (s : State) : Seam := .relay (fld s.relay.sessSel 0 11) (bitAt s.relay.sessSel 11)
def pctrWord (c : PCtr) : Reg64 := at64 c.count 0 ||| at64 (b1 c.wrap) 48 ||| at64 c.tag 52
def cryStatWord (s : State) : Reg64 :=
  at64 (BitVec.ofNat 9 (s.fw.recKey.countP fun p => p.2.isSome)) 0 ||| at64 (BitVec.ofNat 9 s.fw.qKey.length) 16

/-! ### Ledgers, Tacks, scan words -/

def lprodWord (l : Ledger) : Reg64 := at64 l.prod 0 ||| at64 (b1 (phaseOf l.prod.toNat (ledgerSize l))) 31
def lstatWord (s : State) (t : Nat) : Reg64 :=
  let l := s.ledgerAt t
  at64 (b1 (ledgerFull l)) 0 ||| at64 (b1 l.faulted) 1 ||| at64 (b1 l.en) 2 |||
    at64 (b1 (s.ledKey (if t = 0 then 256 else t)).isSome) 3 ||| at64 (s.tallyAt t).carry 16 ||| at64 (s.tallyAt t).seq 32

/-- Holder fields of a Tack. -/
def tackHolder (t : Tack) : Reg64 := at64 t.ten 8 ||| at64 t.port 16 ||| at64 t.reqid 24 ||| at64 t.gen 40
def tackCode : TkState → BitVec 2
  | .free => 0 | .held => 1 | .broken => 2
def tackStatWord (t : Tack) : Reg64 := at64 (tackCode t.st) 0 ||| at64 t.cause 2 ||| tackHolder t

/-- The pending bits of a granule (R120). -/
def scanBits (s : State) (g : Nat) : Reg64 :=
  (List.range 64).foldl (fun w i => w ||| at64 (b1 (pendBit (s.dyn (64 * g + i)).st)) i) 0

/-- The SMT page of a block without lanes, and the SMR page of one without a number, read as at reset (R315). -/
def pageOff (s : State) (off : Nat) : Bool :=
  (decide (0x50000 ≤ off ∧ off < 0x51000) && decide (s.pwr.straps.lanes = 0)) ||
    (decide (0x60000 ≤ off ∧ off < 0x61000) && decide (ownBlk s = 0x7FF))

/-- What a register reads as, for a requester admitted under a region of tenant `ten`. A read of TK_ACQ acts, in Rtp.lean. -/
def readReg (s : State) (ten : BitVec 8) : Reg → Reg64
  | .glbId => glbIdWord s
  | .glbStrap => strapWord s
  | .fwBase => s.pwr.straps.fwBase ++ 0#12
  | .boot => bootWord s
  | .resetR => resetWord s
  | .pwrStat => at64 s.pwr.on 0
  | .prfSel => prfWord s
  | .scan => scanWord s
  | .epoch => epochWord s
  | .twin => twinWord s
  | .timeNow => s.glb.now
  | .timeStat => timeStatWord s
  | .weight k => s.weight k
  | .meas k => fld s.fw.chain (64 * k) 64
  | .measCnt => measCntWord s
  | .errBase => at64 s.log.size 0 ||| at64 s.log.base 12
  | .errCons => at64 s.log.cons 0
  | .errProd => at64 s.log.prod 0 ||| at64 (b1 (errRingPhase s)) 31
  | .errStat => errStatWord s
  | .errSum => errSumWord s
  | .coreCtl => at64 (b1 s.fw.coreRestart) 0
  | .errLost => errLostWord s
  | .logfail n => s.logfail n
  | .logWord e w => logWinWord s e w
  | .counter off => if pageOff s off then 0 else at64 (s.cnt off) 0
  | .tenCounter t off => if ten = 0 || (s.tenantR t).ctrUser then at64 (s.cnt off) 0 else 0
  | .poolUsed sl => at64 (BitVec.ofNat 14 (poolUsed s sl)) 0
  | .maskOp => maskOpWord s
  | .srcSel => at64 s.slc.selSrc 0
  | .srcEntry => srcEntryWord s
  | .srcCtl => srcCtlWord s
  | .lvlMap => s.dlv.lvlMap
  | .arbCfg => at64 s.dlv.nth 0
  | .rstgSel => at64 s.dlv.rstgSel 0
  | .rstgW k => ringWord (s.dlv.rstg.getD (ringNow s s.dlv.rstgSel.toNat)) k
  | .rstgCtl => at64 s.dlv.rstgResult 1
  | .paceCfg => at64 s.dlv.floor 0
  | .paceStat => paceStatWord s
  | .stgSel => at64 s.gates.stgSel 0
  | .stgW k => stgWord s k
  | .gtUpd => gtUpdWord s
  | .linkStat => if s.pwr.straps.lanes = 0 then 0 else linkWord (lk s .twin) s.twin.lanes
  | .laneCfg => if s.pwr.straps.lanes = 0 then 0xFF0A08#64 else
      at64 (if fld s.twin.laneCfg 8 8 = 0 then setFld s.twin.laneCfg 8 1#8 else s.twin.laneCfg) 0
  | .sessSel => if ownBlk s = 0x7FF then 0 else at64 s.relay.sessSel 0
  | .sessStat => if ownBlk s = 0x7FF then 0 else linkWord (lk s (selSession s)) 0
  | .ctrSel d => s.ctrSel d
  | .ctrVal i => pctrWord (s.pctr i)
  | .cryStat => cryStatWord s
  | .mbxCmd m => mbxCmdWord (s.mailbox (mbxKey m))
  | .mbxRsp m => mbxRspWord (s.mailbox (mbxKey m))
  | .mbxStat m => mbxStatWord s m
  | .mbxNote m => mbxNoteWord (s.mailbox (mbxKey m))
  | .mbxArg m i => reg64 (Tbl.get zeroD (s.mailbox (mbxKey m)).arg (2 * i)) (Tbl.get zeroD (s.mailbox (mbxKey m)).arg (2 * i + 1))
  | .mbxRes m i => qwAt (s.mailbox (mbxKey m)).res (2 * i)
  | .lcons t => at64 (s.ledgerAt t).cons 0
  | .lprod t => lprodWord (s.ledgerAt t)
  | .lstat t => lstatWord s t
  | .tenStat t => tenStatWord s t
  | .violLast t w => fld (s.violLast t) (64 * w) 64
  | .lnCons r => lnConsWord (s.half r)
  | .lnRunlvl r => at64 (s.half r).runlvl 0
  | .lnEoi _ => 0
  | .lnProd r => lnProdWord s r
  | .lnStat r => lnStatWord s r
  | .tkAcq n => tackHolder (s.tackAt n)
  | .tkRel _ => 0
  | .tkLease n => at64 (s.tackAt n).lease 0
  | .tkStat n => tackStatWord (s.tackAt n)
  | .scanWord g => scanBits s g

end Sys2Proof.Machine
end

