-- ==== Sys2Proof/Machine/MbxCmd.lean ====
section
/-! DEFINITION. Mailbox commands that stage nothing: general, run time, profile, twin, tally and recovery (file 09). -/

namespace Sys2Proof.Machine

/-- The SRAM of the source's slice is powered, or the slice is woken and the command goes on when its row comes again (R71, R315). -/
def withSlice (k : Nat) (f : State → State) (s : State) : State :=
  let d := dSlc (sliceOf (BitVec.ofNat 18 k))
  if domOn s d then f s else wake d s

/-- MBX_ARGS_TAKEN: step 3 of Table 9-7 with the first three checks of step 4. -/
def doMbxArgsTaken (m : Mbx) (s : State) : State :=
  let k := mbxKey m
  let mb := s.mailbox k
  if mb.busy = .go ∧ fwReady s = true then
    let c := copyCmd mb
    if (issuerOf c.opcode.toNat).isNone then answerBare m stNotSupported s
    else if !mayIssue s m c then answerBare m stDenied s
    else
      match mb.journal with
      | some j =>
        if j.opcode = c.opcode ∧ j.seq = c.seq then respondN m j.status j.res j.bytes true s
        else s.setMailbox k { mb with cmd := some c, busy := .taken }
      | none => s.setMailbox k { mb with cmd := some c, busy := .taken }
  else s

def execMbxArgsTaken (m : Mbx) (s : State) : Host.Outcome State Fault Refusal := .next (s.run (doMbxArgsTaken m))

/-- MBX_SLOW: a running command has passed its bound; one CE names its mailbox (R175). -/
def doMbxSlow (m : Mbx) (s : State) : State :=
  let mb := s.mailbox (mbxKey m)
  if mb.busy = .idle ∨ mb.slow = true ∨ fwReady s = false then s
  else logCEKind .mbxSlow (uMbx m) 0 (s.setMailbox (mbxKey m) { mb with slow := true })

def execMbxSlow (m : Mbx) (s : State) : Host.Outcome State Fault Refusal := .next (s.run (doMbxSlow m))

/-! ### Table 9-9 -/

/-- MBX_NOP answers OK, and is never journalled (R168). -/
def doMbxNop (m : Mbx) (s : State) : State := runCmd m 0x0000 0 (fun _ s => answer m stOk [] s) s

def execMbxNop (m : Mbx) (s : State) : Host.Outcome State Fault Refusal := .next (s.run (doMbxNop m))

/-- The result of MBX_INFO. -/
def infoRes (m : Mbx) (s : State) : List DW :=
  [s.fw.mbxIf.setWidth 32, s.fw.version, BitVec.ofNat 32 (mbxKey m), (mbxTenant m).setWidth 32]

def doMbxInfo (m : Mbx) (s : State) : State := runCmd m 0x0001 0 (fun _ s => answer m stOk (infoRes m s) s) s

def execMbxInfo (m : Mbx) (s : State) : Host.Outcome State Fault Refusal := .next (s.run (doMbxInfo m))

/-! ### SYS_FENCE (R191) and Table 9-11 -/

/-- SYS_FENCE places a marker in every DIP's queues, behind the flushed accumulators, and in the wired-event path of AON; it answers when
every message ahead of them has been applied (R191). -/
def doSysFence (m : Mbx) (s : State) : State :=
  runCmd m 0x0120 0 (fun _ s => let s1 := flushAll s; settleMbx (waitOn m (.fence (markers 17 s1)) s1)) s

def execSysFence (m : Mbx) (s : State) : Host.Outcome State Fault Refusal := .next (s.run (doSysFence m))

/-- The mask operation of SRC_MASK, journalled with it; while PAIRED or DEGRADED the partner performs it too before the answer (R196). -/
def maskCmd (m : Mbx) (src : BitVec 18) (w : DW) (s : State) : State :=
  let s1 := journalNow m [] (maskOp src.toNat (bitAt w 31) s)
  let p := isPaired s1
  waitOn m (.mask src p) (if p then askPeer m (blockDws 0x0200 [w]) s1 else s1)

/-- SRC_MASK: the mask operation of R110, refused for a QUARANTINED source. -/
def doSrcMask (m : Mbx) (s : State) : State :=
  runCmd m 0x0200 1 (fun c s =>
    let src : BitVec 18 := fld (argDw c 0) 0 18
    withSlice src.toNat (fun s =>
      if (s.dyn src.toNat).st = .quarantined then answer m stBadArg [] s
      else settleMbx (maskCmd m src (argDw c 0) s)) s) s

def execSrcMask (m : Mbx) (s : State) : Host.Outcome State Fault Refusal := .next (s.run (doSrcMask m))

/-- The result of SRC_READ. -/
def srcReadRes (k : Nat) (s : State) : List DW :=
  let d := s.dyn k
  let bare := match d.ev with | some e => e.slot.isNone | none => false
  two (srcWord (srcNow s k) d.st) ++ [at32 (b1 (pendBit d.st)) 0 ||| at32 (b1 d.line) 1 ||| at32 (b1 d.rep.isSome) 2 ||| at32 (b1 bare) 3]

def doSrcRead (m : Mbx) (s : State) : State :=
  runCmd m 0x0201 1 (fun c s =>
    let k := (argDw c 0).toNat
    if 262144 ≤ k then answer m stBadArg [] s else withSlice k (fun s => answer m stOk (srcReadRes k s) s) s) s

def execSrcRead (m : Mbx) (s : State) : Host.Outcome State Fault Refusal := .next (s.run (doSrcRead m))

/-- RING_QUIESCE: steps 1 and 2 of Table 7-12 at once; the answer waits for the rest (R145). -/
def doRingQuiesce (m : Mbx) (s : State) : State :=
  runCmd m 0x0210 1 (fun c s =>
    let r := (argDw c 0).toNat
    if 32768 ≤ r then answer m stBadArg [] s
    else afterDlv (waitOn m (.quiesce (BitVec.ofNat 15 r)) (journalNow m [] (quiesceHalf r s)))) s

def execRingQuiesce (m : Mbx) (s : State) : Host.Outcome State Fault Refusal := .next (s.run (doRingQuiesce m))

/-- The result of RING_READ. -/
def ringReadRes (r : Nat) (s : State) : List DW :=
  let e := ringNow s r
  two e.w0 ++ two e.w1 ++ two e.w2 ++ two e.w3 ++ two (lnConsWord (s.half r)) ++ two (lnProdWord s r) ++ two (lnStatWord s r)

def doRingRead (m : Mbx) (s : State) : State :=
  runCmd m 0x0211 1 (fun c s =>
    let r := (argDw c 0).toNat
    if 32768 ≤ r then answer m stBadArg [] s else answer m stOk (ringReadRes r s) s) s

def execRingRead (m : Mbx) (s : State) : Host.Outcome State Fault Refusal := .next (s.run (doRingRead m))

/-! ### Profile and twin (Table 9-13) -/

/-- PRF_SEL as it reads once a change to `p` is complete: what PRF_SET journals with its write of REQ (R169). -/
def prfDone (p : BitVec 2) : DW := lo32 (at64 p 0 ||| at64 p 8)

/-- PRF_SET: admission with the requested profile's ceiling, then REQ (R62). -/
def doPrfSet (m : Mbx) (s : State) : State :=
  runCmd m 0x0400 1 (fun c s =>
    if 4 ≤ (argDw c 0).toNat then answer m stBadArg [] s
    else
      let p : BitVec 2 := fld (argDw c 0) 0 2
      if admission s Txn.empty (ceilOf s p) then settleMbx (waitOn m .profile (journalNow m [prfDone p] (setProfile p s))) else answer m stAdmission [] s) s

def execPrfSet (m : Mbx) (s : State) : Host.Outcome State Fault Refusal := .next (s.run (doPrfSet m))

/-- The result of TWIN_STATUS (R194). -/
def twinStatusRes (s : State) : List DW :=
  [(pairCode s.twin.state).setWidth 32, BitVec.ofNat 32 (lanesUp s), (b1 s.twin.lease).setWidth 32]

def doTwinStatus (m : Mbx) (s : State) : State := runCmd m 0x0500 0 (fun _ s => answer m stOk (twinStatusRes s) s) s

def execTwinStatus (m : Mbx) (s : State) : Host.Outcome State Fault Refusal := .next (s.run (doTwinStatus m))

/-- TWIN_WITNESS reads the word; its response ends the command (R204). -/
def doTwinWitness (m : Mbx) (s : State) : State :=
  runCmd m 0x0501 2 (fun c s =>
    let a := arg64 c 0
    if fld a 0 6 ≠ 0 then answer m stBadArg [] s
    else if s.twin.state ≠ .paired then answer m stTwin [] s
    else if (findRdTag s 256 (Config.readTag s.freeCtr)).isNone then s
    else readReq (.witness m a) (waitOn m (.witness a none) s)) s

def execTwinWitness (m : Mbx) (s : State) : Host.Outcome State Fault Refusal := .next (s.run (doTwinWitness m))

/-- TWIN_REWASH: a Rewash with this block as the one that asked (R207, R208). A running commit or Rewash answers BUSY; without a partner
that can take part, TWIN_UNREACHABLE. -/
def doTwinRewash (m : Mbx) (s : State) : State :=
  runCmd m 0x0502 0 (fun _ s =>
    if s.twin.state = .rewash ∨ s.fw.commit.isSome ∨ s.fw.prepared.isSome then answer m stBusy [] s
    else if !isPaired s || !twinUp s || (match s.twin.partner with | some h => h.fwHalted | none => true) then answer m stTwin [] s
    else startRewash (some m) (waitOn m .rewash (enterRewash s))) s

def execTwinRewash (m : Mbx) (s : State) : Host.Outcome State Fault Refusal := .next (s.run (doTwinRewash m))

/-! ### Tally and counters (Table 9-15) -/

/-- What TLY_LEDGER does to the keys (R275): derived inside a session, absent after a command in the clear. -/
def ledgerKeys (m : Mbx) (t : BitVec 8) (s : State) : State :=
  let mb := s.mailbox (mbxKey m)
  let slot := match m with | .ctl _ => if t = 0 then 256 else t.toNat | .ten _ => t.toNat
  let role : Byte := if slot = 256 then 0 else 1
  match mb.secured, mb.session, m with
  | some _, some n, .ctl _ => if t = 0 then wake dCry (cryKey (s.setLedKey 256 (some (ledgerKey s 0 0 n)))) else s
  | some _, some n, .ten _ => wake dCry (cryKey (s.setLedKey slot (some (ledgerKey s role t n))))
  | _, _, _ => s.setLedKey slot none

/-- TLY_LEDGER sets and restarts a ledger (R276). -/
def doTlyLedger (m : Mbx) (s : State) : State :=
  runCmd m 0x0600 4 (fun c s =>
    let t := (argDw c 0).toNat
    let a := arg64 c 1
    let z := (argDw c 3).toNat
    if 256 ≤ t ∨ fld a 0 12 ≠ 0 ∨ 8 < z then answer m stBadArg [] s
    else
      answer m stOk [] (drainFinals (ledgerKeys m (BitVec.ofNat 8 t)
        (s.setLedger t { base := a, code := BitVec.ofNat 4 z, cons := 0, prod := 0, en := decide (a ≠ 0), faulted := false })))) s

def execTlyLedger (m : Mbx) (s : State) : Host.Outcome State Fault Refusal := .next (s.run (doTlyLedger m))

/-- CTR_CONFIG writes one EVENT field (R281). -/
def doCtrConfig (m : Mbx) (s : State) : State :=
  runCmd m 0x0601 3 (fun c s =>
    let d := (argDw c 0).toNat
    let k := (argDw c 1).toNat
    if 30 ≤ d ∨ 8 ≤ k ∨ 256 ≤ (argDw c 2).toNat then answer m stBadArg [] s
    else answer m stOk [] (s.setCtrSel d (setFld (s.ctrSel d) (8 * k) (fld (argDw c 2) 0 8)))) s

def execCtrConfig (m : Mbx) (s : State) : Host.Outcome State Fault Refusal := .next (s.run (doCtrConfig m))

/-- CTR_SNAPSHOT names the page and the interval, and SNAP_SEQ counts from it (R282). -/
def doCtrSnapshot (m : Mbx) (s : State) : State :=
  runCmd m 0x0602 3 (fun c s =>
    if fld (arg64 c 0) 0 12 ≠ 0 then answer m stBadArg [] s
    else
      answer m stOk [] (s.upCtr fun v =>
        { v with snapAddr := arg64 c 0, snapInt := argDw c 2, snapSeq := 0, snapStopped := decide (argDw c 2 = 0),
                 snapNext := s.glb.now + snapNs (argDw c 2) })) s

def execCtrSnapshot (m : Mbx) (s : State) : Host.Outcome State Fault Refusal := .next (s.run (doCtrSnapshot m))

/-! ### Recovery (Table 9-16) -/

/-- REC_SCAN: recovery is a cause of pending scan; the answer waits for STOPPED (R119). -/
def doRecScan (m : Mbx) (s : State) : State :=
  runCmd m 0x0900 0 (fun _ s => settleMbx (waitOn m .scan (s.upGlb fun g => { g with recovery := true }))) s

def execRecScan (m : Mbx) (s : State) : Host.Outcome State Fault Refusal := .next (s.run (doRecScan m))

/-- REC_RESUME clears its range and ends recovery once STOPPED is 1 (R121). -/
def doRecResume (m : Mbx) (s : State) : State :=
  runCmd m 0x0901 2 (fun c s =>
    let f := (argDw c 0).toNat
    let n := (argDw c 1).toNat
    if !s.glb.recovery || decide (n ≠ 0 ∧ 4096 < f + n) then answer m stBadArg [] s
    else settleMbx (waitOn m (.resume f n) s)) s

def execRecResume (m : Mbx) (s : State) : Host.Outcome State Fault Refusal := .next (s.run (doRecResume m))

/-- Some LOGFAIL register is valid. -/
def logfailOpen (s : State) : Bool := (List.range 4).any fun n => bitAt (s.logfail n) 0

/-- With every LOGFAIL register clear and UCB_OPEN 0, the log SRAM is zeroed and read back: a clean readback leaves bypass with an empty
log, a failed one sets a register again (R292). -/
def leaveBypass (clean : Bool) (syn : Byte) (e : BitVec 6) (s : State) : State :=
  if s.log.bypass && !logfailOpen s && !s.log.ucbOpen then
    if clean then s.upLog fun l => { l with bypass := false, ents := [] } else logSramFail e syn s
  else s

/-- ERR_ACK acknowledges an entry, or clears UCB_OPEN (R286). -/
def doErrAck (m : Mbx) (clean : Bool) (syn : Byte) (e : BitVec 6) (s : State) : State :=
  runCmd m 0x0902 1 (fun c s =>
    let w := (argDw c 0).toNat
    if w = 0xFF then answer m stOk [] (leaveBypass clean syn e (s.upLog fun l => { l with ucbOpen := false }))
    else if 64 ≤ w ∨ (s.logEnt w).isNone then answer m stBadArg [] s
    else answer m stOk [] (ackEntry w s)) s

def execErrAck (m : Mbx) (clean : Bool) (syndrome : Byte) (entry : Fin 64) (s : State) : Host.Outcome State Fault Refusal :=
  .next (s.run (doErrAck m clean syndrome (BitVec.ofNat 6 entry.val)))

/-- ERR_LOGFAIL_CLR clears the named registers (R292). -/
def doErrLogfailClr (m : Mbx) (clean : Bool) (syn : Byte) (e : BitVec 6) (s : State) : State :=
  runCmd m 0x0903 1 (fun c s =>
    let s1 := (List.range 4).foldl (fun s n => if bitAt (argDw c 0) n then s.setLogfail n 0 else s) s
    answer m stOk [] (leaveBypass clean syn e s1)) s

def execErrLogfailClr (m : Mbx) (clean : Bool) (syndrome : Byte) (entry : Fin 64) (s : State) : Host.Outcome State Fault Refusal :=
  .next (s.run (doErrLogfailClr m clean syndrome (BitVec.ofNat 6 entry.val)))

end Sys2Proof.Machine
end

