-- ==== Sys2Proof/Machine/Rs.lean ====
section
/-! DEFINITION. The Reed–Solomon code of relayed bundles (R231): arithmetic in GF(2^8), the encoder, and a decoder that corrects up to 8
symbols of a codeword. -/

namespace Sys2Proof.Machine

/-! ### GF(2^8) with field polynomial x^8 + x^4 + x^3 + x^2 + 1 -/

/-- Multiplication by α = 0x02. -/
def rsTwice (a : Byte) : Byte := if bitAt a 7 then (a <<< 1) ^^^ 0x1D#8 else a <<< 1

/-- Product, over the lowest `n` bits of `b`. -/
def rsMulBits : Nat → Byte → Byte → Byte
  | 0, _, _ => 0
  | n + 1, a, b => (if bitAt b 0 then a else 0) ^^^ rsMulBits n (rsTwice a) (b >>> 1)

/-- Product. -/
def rsMul (a b : Byte) : Byte := rsMulBits 8 a b

/-- Power. -/
def rsPow (a : Byte) : Nat → Byte
  | 0 => 1
  | n + 1 => rsMul a (rsPow a n)

/-- α^n. -/
def rsAlpha (n : Nat) : Byte := rsPow 2 (n % 255)

/-- Inverse of a symbol other than zero: a^254. -/
def rsInv (a : Byte) : Byte := rsPow a 254

/-! ### Polynomials, the lowest degree first -/

/-- Sum. -/
def polyAdd : List Byte → List Byte → List Byte
  | [], q => q
  | p, [] => p
  | a :: p, b :: q => (a ^^^ b) :: polyAdd p q

/-- Multiple by a symbol. -/
def polyScale (k : Byte) (p : List Byte) : List Byte := p.map (rsMul k)

/-- Product. -/
def polyMul : List Byte → List Byte → List Byte
  | [], _ => []
  | a :: p, q => polyAdd (polyScale a q) (0 :: polyMul p q)

/-- Value at `x`. -/
def polyEval (p : List Byte) (x : Byte) : Byte := p.foldr (fun a acc => a ^^^ rsMul x acc) 0

/-- Generator: the product of (x − α^i) for i = 0 to 15. -/
def rsGen : List Byte := (List.range 16).foldl (fun g i => polyMul g [rsAlpha i, 1]) [1]

/-! ### Encoder -/

/-- One step of the division by the generator; `g` holds its coefficients below the highest, and the register the highest degree
first. -/
def rsStep (g : List Byte) (reg : List Byte) (b : Byte) : List Byte :=
  let fb := b ^^^ reg.headD 0
  (reg.drop 1 ++ [0]).zipWith (fun r c => r ^^^ rsMul fb c) g

/-- The 16 parity symbols of a message, the highest degree first. -/
def rsParity (msg : List Byte) : List Byte :=
  msg.foldl (rsStep ((rsGen.take 16).reverse)) (List.replicate 16 0)

/-! ### Decoder -/

/-- Syndromes: the codeword, first byte the highest degree, at α^0 to α^15. -/
def rsSyndromes (cw : List Byte) : List Byte :=
  (List.range 16).map fun i => cw.foldl (fun acc b => b ^^^ rsMul (rsAlpha i) acc) 0

/-- State of the Berlekamp–Massey recursion: the locator, the previous one, its length, the shift, and the previous discrepancy. -/
structure RsBm where
  c : List Byte
  b : List Byte
  len : Nat
  shift : Nat
  disc : Byte

/-- One step, at syndrome `n`. -/
def rsBmStep (syn : List Byte) (x : RsBm) (n : Nat) : RsBm :=
  let d := (List.range (x.len + 1)).foldl (fun acc i => acc ^^^ rsMul (x.c.getD i 0) (if i ≤ n then syn.getD (n - i) 0 else 0)) 0
  let next := polyAdd x.c (List.replicate x.shift 0 ++ polyScale (rsMul d (rsInv x.disc)) x.b)
  if d = 0 then { x with shift := x.shift + 1 }
  else if 2 * x.len ≤ n then { c := next, b := x.c, len := n + 1 - x.len, shift := 1, disc := d }
  else { x with c := next, shift := x.shift + 1 }

/-- The error locator and its degree. -/
def rsLocator (syn : List Byte) : RsBm :=
  (List.range 16).foldl (rsBmStep syn) { c := [1], b := [1], len := 0, shift := 1, disc := 1 }

/-- Formal derivative: in characteristic 2 the odd coefficients move down. -/
def polyDeriv (p : List Byte) : List Byte :=
  ((List.range p.length).drop 1).map fun i => if i % 2 = 1 then p.getD i 0 else 0

/-- Degrees, below `n`, at which the locator places an error. -/
def rsPlaces (loc : List Byte) (n : Nat) : List Nat :=
  (List.range n).filter fun k => polyEval loc (rsInv (rsAlpha k)) = 0

/-- The error at degree `k`. -/
def rsValue (syn loc : List Byte) (k : Nat) : Byte :=
  let xi := rsInv (rsAlpha k)
  let omega := (polyMul syn loc).take 16
  rsMul (rsAlpha k) (rsMul (polyEval omega xi) (rsInv (polyEval (polyDeriv loc) xi)))

/-- Corrects a codeword of up to 8 symbol errors; none where it holds more than the code corrects. -/
def rsDecode (cw : List Byte) : Option (List Byte) :=
  let syn := rsSyndromes cw
  if syn.all (· = 0) then some cw
  else
    let x := rsLocator syn
    let n := cw.length
    let at_ := rsPlaces x.c n
    if x.len ≤ 8 ∧ at_.length = x.len then
      let fixed := (List.range n).map fun i =>
        let b := cw.getD i 0
        if at_.contains (n - 1 - i) then b ^^^ rsValue syn x.c (n - 1 - i) else b
      if (rsSyndromes fixed).all (· = 0) then some fixed else none
    else none

/-! ### Codewords of a bundle (R231) -/

/-- Bytes at even or odd places. -/
def everyOther (odd : Bool) (l : List Byte) : List Byte :=
  ((List.range l.length).filter fun i => decide (i % 2 = 1) = odd).map fun i => l.getD i 0

/-- The two lists merged, the even places first. -/
def interleave : List Byte → List Byte → List Byte
  | a :: p, b :: q => a :: b :: interleave p q
  | p, [] => p
  | [], q => q

/-- Parity over the protected bytes: one codeword up to 239 of them, else two. -/
def bundleParity (l : List Byte) : List Byte :=
  if l.length ≤ 239 then rsParity l else rsParity (everyOther false l) ++ rsParity (everyOther true l)

/-- The protected bytes `l` corrected by their parity, and whether a symbol of them or of the parity needed correction. -/
def bundleCorrect (l par : List Byte) : Option (List Byte × Bool) :=
  if l.length ≤ 239 then
    let cw := l ++ par.take 16
    (rsDecode cw).map fun x => (x.take l.length, decide (x ≠ cw))
  else
    let e := everyOther false l
    let o := everyOther true l
    let ce := e ++ par.take 16
    let co := o ++ (par.drop 16).take 16
    match rsDecode ce, rsDecode co with
    | some x, some y => some (interleave (x.take e.length) (y.take o.length), decide (x ≠ ce) || decide (y ≠ co))
    | _, _ => none

end Sys2Proof.Machine
end

