-- ==== Sys2Proof/Machine/RelayOps.lean ====
section
/-! DEFINITION. Bundles and paths of Seam-R relay as shared operations (files 12 and 13). -/

namespace Sys2Proof.Machine

/-! ### The bundle as bytes (Table 12-9) -/

/-- DWs of a record in a bundle: four, or eight with TS_HI in a sealed one. -/
def relDws (isSealed : Bool) (r : RelRec) : List DW :=
  if isSealed then [r.dw0, r.dw1, r.dw2, r.dw3, r.tsHi, 0, 0, 0] else [r.dw0, r.dw1, r.dw2, r.dw3]

/-- Header and records. -/
def bundleBody (s : State) (b : Bundle) : List DW :=
  [at32 (ownBlk s) 0 ||| at32 (b1 (strapB s)) 11 ||| at32 (BitVec.ofNat 4 b.recs.length) 12 |||
      at32 (if b.isSealed then 0x9#4 else 0x8#4) 24,
    at32 b.ring 0, b.bseq, b.handle] ++ b.recs.flatMap (relDws b.isSealed)

/-- A bundle formed with its CRC and code. -/
def bundleBits (s : State) (b : Bundle) : BitVec 2880 :=
  let body := bytesOfDws (bundleBody s b)
  let prot := body ++ bytesOf (crc32 body) 4
  BitVec.ofNat 2880 (natOfBytes (prot ++ bundleParity prot))

/-- A received bundle after its check: what it says, and whether it needed correction. -/
structure RxBundle where
  blk : BitVec 11
  strap : Bool
  ring : BitVec 15
  bseq : BitVec 32
  handle : DW
  recs : List RelRec
  corrected : Bool
deriving DecidableEq, Repr

/-- Record `i` of a bundle's DWs. -/
def relRecAt (isSealed : Bool) (l : List DW) (i : Nat) : RelRec :=
  let d := l.drop (4 + (if isSealed then 8 else 4) * i)
  { dw0 := dwAt d 0, dw1 := dwAt d 1, dw2 := dwAt d 2, dw3 := dwAt d 3, tsHi := if isSealed then dwAt d 4 else 0 }

/-- DWs from bytes. -/
def dwsOfBytes : Nat → List Byte → List DW
  | 0, _ => []
  | n + 1, l => BitVec.ofNat 32 (natOfBytes (l.take 4)) :: dwsOfBytes n (l.drop 4)

/-- The bundle read as one of `n` records: corrected by the code, with a good CRC, and of that COUNT. The COUNT that arrived is a symbol
like any other, so it is not trusted before the code is checked (R231, log entry 34). -/
def rxWith (isSealed : Bool) (area : List Byte) (n : Nat) : Option RxBundle :=
  let len := 20 + n * (if isSealed then 32 else 16)
  match bundleCorrect (area.take len) (area.drop len) with
  | none => none
  | some (fixed, corrected) =>
    let body := fixed.take (len - 4)
    let w := dwsOfBytes (len / 4) fixed
    let d0 := dwAt w 0
    if BitVec.ofNat 32 (natOfBytes (fixed.drop (len - 4))) = crc32 body ∧ (fld d0 12 4).toNat = n ∧
        fld d0 24 4 = (if isSealed then 0x9#4 else 0x8#4) then
      some { blk := fld d0 0 11, strap := bitAt d0 11, ring := fld (dwAt w 1) 0 15, bseq := dwAt w 2, handle := dwAt w 3,
             recs := (List.range n).map (relRecAt isSealed w), corrected }
    else none

/-- The bundle that the code finds in an area, if any. -/
def rxBundle (isSealed : Bool) (b : BitVec 2880) : Option RxBundle :=
  ((List.range 8).map (· + 1)).findSome? (rxWith isSealed (bytesOf b (if isSealed then 360 else 240)))

/-! ### Sessions (R229, R237) -/

/-- SMR works: relay is strapped on and powered, outside resets. -/
def relayOn (s : State) : Bool := decide (ownBlk s ≠ 0x7FF) && domOn s dSmr && accepting s

/-- Sessions that are open. -/
def openSessions (s : State) : Nat := s.link.countP fun p => p.1 ≠ 0 && p.2.st ≠ .down

/-- A session may be opened (R229). -/
def mayOpen (s : State) : Bool := decide (openSessions s < 32)

/-- The path toward a peer has failed. -/
def pathFailed (s : State) (blk : BitVec 11) (strap : Bool) : Bool := s.relay.failed.contains (blk, strap)

/-- The strap that launches for a block go to: the own one, or after a failure of that path the other (R237, R243). -/
def launchStrap (s : State) (blk : BitVec 11) : Bool :=
  if pathFailed s blk (strapB s) && !pathFailed s blk (!strapB s) then !strapB s else strapB s

/-- Unacknowledged bundles of a session. -/
def bundlesOf (s : State) (blk : BitVec 11) (strap : Bool) : List Bundle :=
  s.relay.bundles.filter fun b => b.blk = blk && b.strap = strap

/-- The next BSEQ toward a peer; the counter advances. -/
def takeBseq (blk : BitVec 11) (strap : Bool) (s : State) : BitVec 32 × State :=
  let k := linkKey (.relay blk strap)
  let n := Tbl.get zeroD s.relay.bseq k
  (n, s.upRelay fun y => { y with bseq := Tbl.set zeroD y.bseq k (n + 1) })

/-- The bundle as a message. -/
def bundleMsg (s : State) (b : Bundle) : SMsg := .bundle b.isSealed (bundleBits s b)

/-- A bundle joins what its session sends. -/
def queueBundle (b : Bundle) (s : State) : State :=
  let l := Seam.relay b.blk b.strap
  setLk l { lk s l with txReq := (lk s l).txReq ++ [bundleMsg s b] } s

/-- Inserts by BSEQ, counted from `base`. -/
def insertBseq (base : BitVec 32) (b : Bundle) : List Bundle → List Bundle
  | [] => [b]
  | c :: r => if (b.bseq - base).toNat < (c.bseq - base).toNat then b :: c :: r else c :: insertBseq base b r

/-- The session's bundles in BSEQ order, from the oldest that it may hold. -/
def inOrder (s : State) (blk : BitVec 11) (strap : Bool) : List Bundle :=
  let next := Tbl.get zeroD s.relay.bseq (linkKey (.relay blk strap))
  (bundlesOf s blk strap).foldl (fun l b => insertBseq (next - 0x80000000#32) b l) []

/-- One resend is counted for the bundle and toward its block. -/
def countResend (b : Bundle) (s : State) : State :=
  s.upRelay fun y =>
    { y with bundles := y.bundles.map (fun c => if c = b then { c with resends := c.resends + 1 } else c),
             resent := Tbl.set zeroD y.resent b.blk.toNat (Tbl.get zeroD y.resent b.blk.toNat + 1) }

/-! ### A path fails (R243) -/

/-- A record of a bundle that is sent toward the other strap. -/
def dupRec (r : RelRec) : RelRec := { r with dw2 := r.dw2 ||| at32 (1#1) 24 }

/-- A RELAY_FENCE that waits for a bundle waits for what it is rebuilt into (R242). -/
def moveFences (b c : Bundle) (s : State) : State :=
  s.upMbx fun t => t.map fun p =>
    match p.2.busy with
    | .relayFence k l => (p.1, { p.2 with busy := .relayFence k (l.map fun x => if k = b.blk ∧ x = (b.bseq, b.strap) then (c.bseq, c.strap) else x) })
    | _ => p

/-- A bundle rebuilt toward the other strap: its records flagged DUP_POSSIBLE, a BSEQ of that session, counted as redirected and
resent. -/
def redirect (b : Bundle) (s : State) : State :=
  let p := takeBseq b.blk (!b.strap) s
  let c : Bundle := { b with strap := !b.strap, bseq := p.1, recs := b.recs.map dupRec, resends := 0 }
  let s1 := p.2.upRelay fun y =>
    { y with bundles := (y.bundles.filter fun x => x ≠ b) ++ [c],
             resent := Tbl.set zeroD y.resent b.blk.toNat (Tbl.get zeroD y.resent b.blk.toNat + 1) }
  queueBundle c (bump (smrPage + 0x088) (moveFences b c s1))

/-- Everything unacknowledged of a failed session moves to the other strap, in BSEQ order. -/
def redirectAll (blk : BitVec 11) (strap : Bool) (s : State) : State :=
  let l := Seam.relay blk strap
  let s1 := (inOrder s blk strap).foldl (fun s b => redirect b s) s
  setLk l { lk s1 l with txReq := [] } s1

/-- RELAY_FENCE toward a block whose path has gone down answers ABORTED (R192). -/
def abortFences (blk : BitVec 11) (s : State) : State :=
  (mbxKeys s).foldl
    (fun s k =>
      match (s.mailbox k).busy with
      | .relayFence b _ => if b = blk ∧ fwReady s then answer (mbxOf k) stAborted [] s else s
      | _ => s) s

/-- Nothing refused on the session is awaited any longer. -/
def unawait (blk : BitVec 11) (strap : Bool) (s : State) : State :=
  s.upRelay fun y => { y with awaited := y.awaited.filter fun a => a.sess ≠ linkKey (.relay blk strap) }

/-- The session has come UP anew: what it refused comes before anything later, or has gone to the other strap (R232, R243). -/
def awaitAnew (blk : BitVec 11) (strap : Bool) (s : State) : State :=
  s.upRelay fun y => { y with awaited := y.awaited.map fun a => if a.sess = linkKey (.relay blk strap) then { a with anew := true } else a }

/-- The path toward a peer fails: logged, and redirected unless the other strap's path has failed too. -/
def failPath (blk : BitVec 11) (strap : Bool) (s : State) : State :=
  if pathFailed s blk strap then s
  else
    let s1 := linkCE .relayPathFail (.relay blk strap) 
      (unawait blk strap (s.upRelay fun y => { y with failed := y.failed ++ [(blk, strap)] }))
    let s2 := abortFences blk s1
    if pathFailed s2 blk (!strap) ∨ routeOf s2 blk = none then s2
    else
      let s3 := redirectAll blk strap s2
      let t := Seam.relay blk (!strap)
      if (lk s3 t).st = .down ∧ bundlesOf s3 blk (!strap) ≠ [] ∧ mayOpen s3 then startTraining t s3 else s3

/-- A bundle is sent again, or a fifth resend fails the path (R232). -/
def resendBundle (b : Bundle) (s : State) : State :=
  if 4 ≤ b.resends then failPath b.blk b.strap s
  else
    let s1 := countResend b s
    queueBundle { b with resends := b.resends + 1 } s1

/-- A session that is UP carries new launches again; it takes over the bundles of a path toward the other strap that has failed (R243). -/
def pathGood (blk : BitVec 11) (strap : Bool) (s : State) : State :=
  let s1 := s.upRelay fun y => { y with failed := y.failed.filter fun p => p ≠ (blk, strap) }
  if pathFailed s1 blk (!strap) then redirectAll blk (!strap) s1 else s1

/-- A session reaches UP anew: its path is good again; it carries each of its bundles that is not yet queued, until one has failed the path
(R232, R310), and takes over those of a failed path toward the other strap (R243). -/
def sessionUp (blk : BitVec 11) (strap : Bool) (s : State) : State :=
  let l := Seam.relay blk strap
  let s1 := s.upRelay fun y => { y with failed := y.failed.filter fun p => p ≠ (blk, strap) }
  let q := (lk s1 l).txReq
  let s2 := awaitAnew blk strap (setLk l { lk s1 l with txReq := [] } s1)
  let s3 := (inOrder s2 blk strap).foldl
    (fun s b =>
      if pathFailed s blk strap then s
      else if q.contains (bundleMsg s b) then queueBundle b s
      else resendBundle b s) s2
  if pathFailed s3 blk strap then s3 else pathGood blk strap s3

end Sys2Proof.Machine
end

