-- ==== Sys2Proof/Machine/Txn.lean ====
section
/-! DEFINITION. The transaction commands of Table 9-10 (files 09 and 10). -/

namespace Sys2Proof.Machine

/-- The tenant whose own mailbox stages, none for a control mailbox (R172). -/
def stagerOf (m : Mbx) : Option (BitVec 8) :=
  match m with
  | .ctl _ => none
  | .ten t => some t

/-- The tenant inside whose session the command runs (R173). -/
def insideOf (s : State) (m : Mbx) : Option (BitVec 8) :=
  match m with
  | .ten t => if inSession s m then some t else none
  | .ctl _ => none

/-- The next transaction command after a discard answers ABORTED, once (R174, R178). Which commands do is the model's choice (DESIGN CHOICE,
log entry 122): every command of Table 9-10 that concerns the mailbox's transaction, TXN_BEGIN among them. -/
def sayAborted (m : Mbx) (s : State) : State :=
  answer m stAborted [] (s.setMailbox (mbxKey m) { s.mailbox (mbxKey m) with aborted := false })

/-- What a command of a transaction answers where none is open: ABORTED after a discard, else NO_TXN. -/
def noTxn (m : Mbx) (s : State) : State := if (s.mailbox (mbxKey m)).aborted then sayAborted m s else answer m stNoTxn [] s

/-- Replaces the open transaction. -/
def setTxn (m : Mbx) (t : Option Txn) (s : State) : State :=
  s.setMailbox (mbxKey m) { s.mailbox (mbxKey m) with txn := t }

/-- TXN_BEGIN (R177, R178). -/
def doTxnBegin (m : Mbx) (s : State) : State :=
  runCmd m 0x0100 0 (fun _ s =>
    let mb := s.mailbox (mbxKey m)
    if mb.txn.isSome then answer m stTxnOpen [] s
    else if mb.aborted then sayAborted m s
    else answer m stOk [s.glb.epoch.setWidth 32] (s.setMailbox (mbxKey m) { mb with txn := some Txn.empty })) s

def execTxnBegin (m : Mbx) (s : State) : Host.Outcome State Fault Refusal := .next (s.run (doTxnBegin m))

/-- TXN_ABORT (R178). -/
def doTxnAbort (m : Mbx) (s : State) : State :=
  runCmd m 0x0102 0 (fun _ s =>
    match (s.mailbox (mbxKey m)).txn with
    | none => noTxn m s
    | some _ => answer m stOk [] (setTxn m none s)) s

def execTxnAbort (m : Mbx) (s : State) : Host.Outcome State Fault Refusal := .next (s.run (doTxnAbort m))

/-- The staged counts. -/
def txnCounts (t : Txn) : List DW :=
  [BitVec.ofNat 32 t.srcs.length, BitVec.ofNat 32 t.rings.length, BitVec.ofNat 32 t.regions.length,
    BitVec.ofNat 32 (t.mcasts.length + t.remotes.length), BitVec.ofNat 32 t.groups.length]

def doTxnStatus (m : Mbx) (s : State) : State :=
  runCmd m 0x0103 0 (fun _ s =>
    match (s.mailbox (mbxKey m)).txn with
    | none => noTxn m s
    | some t => answer m stOk (txnCounts t) s) s

def execTxnStatus (m : Mbx) (s : State) : Host.Outcome State Fault Refusal := .next (s.run (doTxnStatus m))

/-! ### Staging (R177, R336) -/

/-- Stages items, all or none: SEALED, then the checks of each entry against the transaction with them, then the limits. -/
def stageItems (m : Mbx) (items : List Item) (t : Txn) (s : State) : State :=
  let t1 := items.foldl addItem t
  if items.any (itemSealed s (insideOf s m)) then answer m stSealed [] s
  else if !items.all (itemOk s (stagerOf m) t1) then answer m stBadArg [] s
  else if !txnFits t1 then answer m stTxnFull [] s
  else answer m stOk [] (setTxn m (some t1) s)

/-- A stage command: its arguments first (Table 9-7, step 4), then the open transaction. -/
def doStage (m : Mbx) (op : Nat) (s : State) : State :=
  runCmd m op 1 (fun c s =>
    match parseStage op c.args with
    | none => answer m stBadArg [] s
    | some items =>
      match (s.mailbox (mbxKey m)).txn with
      | none => noTxn m s
      | some t => stageItems m items t s) s

def doSrcStage (m : Mbx) (s : State) : State := doStage m 0x0110 s
def execSrcStage (m : Mbx) (s : State) : Host.Outcome State Fault Refusal := .next (s.run (doSrcStage m))

def doRingStage (m : Mbx) (s : State) : State := doStage m 0x0111 s
def execRingStage (m : Mbx) (s : State) : Host.Outcome State Fault Refusal := .next (s.run (doRingStage m))

def doGateStage (m : Mbx) (s : State) : State := doStage m 0x0112 s
def execGateStage (m : Mbx) (s : State) : Host.Outcome State Fault Refusal := .next (s.run (doGateStage m))

def doMcastStage (m : Mbx) (s : State) : State := doStage m 0x0113 s
def execMcastStage (m : Mbx) (s : State) : Host.Outcome State Fault Refusal := .next (s.run (doMcastStage m))

/-- REMOTE_STAGE answers NOT_SUPPORTED on a block without Seam-R (Table 9-6). -/
def doRemoteStage (m : Mbx) (s : State) : State :=
  if ownBlk s = 0x7FF then runCmd m 0x0114 0 (fun _ s => answer m stNotSupported [] s) s else doStage m 0x0114 s

def execRemoteStage (m : Mbx) (s : State) : Host.Outcome State Fault Refusal := .next (s.run (doRemoteStage m))

def doGroupStage (m : Mbx) (s : State) : State := doStage m 0x0115 s
def execGroupStage (m : Mbx) (s : State) : Host.Outcome State Fault Refusal := .next (s.run (doGroupStage m))

/-! ### TXN_COMMIT (Table 10-2) -/

/-- Step 3 of R179 toward the partner: PREPARE with every entry, and its vote is awaited. -/
def prepare (m : Mbx) (t : Txn) (s : State) : State :=
  let e := s.glb.epoch + 1
  let c : CommitRun := { mbx := m, what := .txn t, epoch := e, sentAt := s.glb.now, stage := .vote, merge := t.srcs.length }
  sendReq (.fw 0x01 (e.setWidth 32 :: whatDws (.txn t))) (waitOn m .commit (s.upFw fun f => { f with commit := some c }))

/-- A commit that asks nobody: the flip, journalled with it, and the answer. -/
def commitAlone (m : Mbx) (t : Txn) (s : State) : State := afterDlv (answerJournal m (flipFor m t s))

/-- A SOLO commit under the lease renews it first (R206). -/
def commitLease (m : Mbx) (t : Txn) (s : State) : State :=
  let c : CommitRun := { mbx := m, what := .txn t, epoch := s.glb.epoch + 1, sentAt := s.glb.now, stage := .renew, merge := t.srcs.length }
  renewCommit (waitOn m .commit (s.upFw fun f => { f with commit := some c }))

/-- The block commits without partner and lease: no lanes, or PARTNER_ABSENT with no witness named (Table 2-9, R206). -/
def needsNobody (s : State) : Bool := decide (s.pwr.straps.lanes = 0) || (s.twin.absent && s.twin.witness.isNone)

/-- Who takes part in a commit now; none where it cannot run, with the status. -/
inductive CommitWay where
  | partner
  | alone
  | lease
  | no (status : Byte)
deriving DecidableEq, Repr

/-- The way of a commit in the pair state (R180, R200, R206, R207). -/
def commitWay (s : State) : CommitWay :=
  match s.twin.state with
  | .rewash => .no stBusy
  | .training | .alone => .no stTwin
  | .paired | .degraded =>
    match s.twin.partner with
    | some h => if h.fwHalted then .no stTwin else .partner
    | none => .partner
  | .solo => if needsNobody s then .alone else if s.twin.lease && s.twin.word.isSome then .lease else .no stTwin

/-- Steps 1 and 2 of Table 10-2, and the way the commit takes. -/
def commitNow (m : Mbx) (t : Txn) (s : State) : State :=
  match commitWay s with
  | .no st => answer m st [] s
  | w =>
    if !admission s t (ceilNow s) then answer m stAdmission [] s
    else if !recheck s (stagerOf m) t then answer m stBadArg [] s
    else
      match w with
      | .partner => prepare m t s
      | .alone => commitAlone m t s
      | _ => commitLease m t s

/-- TXN_COMMIT where a transaction is open. A fresh one answers BUSY_MERGING while a flip drains or merges (step 1, R187), and waits for
another mailbox's commit before its flip; one that waits goes on once that commit, its drain and its merge have ended (R174). A change of
the DIP gate wakes every gated DIP first (R301, log entry 153). -/
def commitTxn (m : Mbx) (t : Txn) (fresh : Bool) (s : State) : State :=
  if fresh && (s.glb.draining || s.glb.merging) then answer m stBusyMerging [] s
  else if s.fw.commit.isSome || s.glb.draining || s.glb.merging then waitOn m .commitWait s
  else if s.fw.prepared.isSome then (if fresh then answer m stTwin [] s else s)
  else if changesDip t && dipAsleep s then waitOn m .commitWait (wakeDips s)
  else commitNow m t s

/-- The command as the mailbox runs it. -/
def commitCmd (m : Mbx) (fresh : Bool) (s : State) : State :=
  match (s.mailbox (mbxKey m)).txn with
  | none => noTxn m s
  | some t => commitTxn m t fresh s

/-- TXN_COMMIT, also where it waits for another mailbox's commit and its row comes again. -/
def doTxnCommit (m : Mbx) (s : State) : State :=
  if (s.mailbox (mbxKey m)).busy = .commitWait then (if fwReady s then commitCmd m false s else s)
  else runCmd m 0x0101 0 (fun _ s => commitCmd m true s) s

def execTxnCommit (m : Mbx) (s : State) : Host.Outcome State Fault Refusal := .next (s.run (doTxnCommit m))

end Sys2Proof.Machine
end

