-- ==== Sys2Proof/Machine/Tenant.lean ====
section
/-! DEFINITION. The tenant commands of Table 9-12 (files 04, 05, 08, 13, 14). -/

namespace Sys2Proof.Machine

/-- A valid register region of a tenant other than 0 and `t` that covers bytes `lo` to `hi` (R322). -/
def coveredByOther (s : State) (t : BitVec 8) (lo hi : Nat) : Bool :=
  (gateKeys s 1).any fun k =>
    let g := s.region k
    regValid g && decide (regTen g ≠ 0) && decide (regTen g ≠ t) && regMeets g lo hi

/-- A granule holds an entry with EN = 1. -/
def granuleEnabled (s : State) (g : Nat) : Bool := (List.range 64).any fun i => srcEn (srcNow s (64 * g + i))

/-- TEN_GRANULE gives granules to a tenant (R63, R322). -/
def doTenGranule (m : Mbx) (s : State) : State :=
  runCmd m 0x0300 3 (fun c s =>
    let f := (argDw c 0).toNat
    let n := (argDw c 1).toNat
    let t : BitVec 8 := fld (argDw c 2) 0 8
    if 256 ≤ (argDw c 2).toNat ∨ f < 16 ∨ 4096 < f + n ∨ retiredTen s t then answer m stBadArg [] s
    else
      let gs := (List.range n).map fun i => f + i
      if sealedTen s t || gs.any fun g => sealedTen s (s.owner g) then answer m stSealed [] s
      else if gs.any fun g => granuleEnabled s g || coveredByOther s t (0x800000 + 8 * g) (0x800000 + 8 * g + 7) then answer m stBadArg [] s
      else answer m stOk [] (gs.foldl (fun s g => s.setOwner g t) s)) s

def execTenGranule (m : Mbx) (s : State) : Host.Outcome State Fault Refusal := .next (s.run (doTenGranule m))

/-! ### Colours (R245–R248) -/

/-- Regions of tenant `t` in gate `g` with VALID = 1, quarantined ones among them (R247, R248). -/
def regionsOf (s : State) (g : Nat) (t : BitVec 8) : List Nat := (gateKeys s g).filter fun k => regValid (s.region k) && decide (regTen (s.region k) = t)

/-- The first `n` free regions of gate `g`, lowest first; fewer where there are not so many. -/
def freeRegions (s : State) (g n : Nat) : List Nat :=
  (((List.range (gateSize g)).map fun i => 4096 * g + i).filter fun k => !regValid (s.region k)).take n

/-- A region with another colour. -/
def recolour (c : BitVec 8) (r : Region) : Region := { r with attr := setFld r.attr 0 c }

/-- Copies tenant 0's regions of gate `g` into free ones with colour `c`. -/
def copyRegions (g : Nat) (c : BitVec 8) (s : State) : State :=
  let ks := regionsOf s g 0
  (ks.zip (freeRegions s g ks.length)).foldl (fun t p => installRegion p.2 (recolour c (s.region p.1)) t) s

/-- Every gate has room for the copies. -/
def roomForCopies (s : State) : Bool :=
  [0, 1, 2].all fun g => decide ((freeRegions s g (regionsOf s g 0).length).length = (regionsOf s g 0).length)

/-- Another tenant than `t` holds colour `c`, or tenant 0 keeps it as its previous one. -/
def colourTaken (s : State) (t : BitVec 8) (c : BitVec 8) : Bool :=
  ((List.range 256).any fun u => u ≠ t.toNat && holdsColour s u c) || (decide (t ≠ 0) && decide (s.gates.prevColour = some c))

/-- Records a colour. -/
def setColour (t c : BitVec 8) (s : State) : State := s.setTenantR t.toNat { s.tenantR t.toNat with colour := c, coloured := true }

/-- The two-colour change of tenant 0 (R248). -/
def twoColour (c : BitVec 8) (s : State) : State :=
  let s1 := [0, 1, 2].foldl (fun s g => copyRegions g c s) s
  let s2 := s1.upGates fun g => { g with prevColour := some (s.tenantR 0).colour }
  releaseColour (setColour 0 c s2)

/-- TEN_COLOUR sets a tenant's colour (R247, R248). -/
def doTenColour (m : Mbx) (s : State) : State :=
  runCmd m 0x0301 2 (fun a s =>
    let t : BitVec 8 := fld (argDw a 0) 0 8
    let c : BitVec 8 := fld (argDw a 1) 0 8
    if 256 ≤ (argDw a 0).toNat ∨ 256 ≤ (argDw a 1).toNat ∨ retiredTen s t ∨ colourTaken s t c then answer m stBadArg [] s
    else if sealedTen s t then answer m stSealed [] s
    else if t ≠ 0 then
      if [0, 1, 2].any fun g => regionsOf s g t ≠ [] then answer m stBadArg [] s else answer m stOk [] (setColour t c s)
    else if s.gates.prevColour.isSome then answer m stBadArg [] s
    else if holdsColour s 0 c then answer m stOk [] s
    else if !roomForCopies s then answer m stBadArg [] s
    else if tenDips s 0 && dipAsleep s then wakeDips s
    else answer m stOk [] (twoColour c s)) s

def execTenColour (m : Mbx) (s : State) : Host.Outcome State Fault Refusal := .next (s.run (doTenColour m))

/-! ### Share, rights, handle, status -/

/-- GUAR over the tenant's enabled and healthy halves (R159). -/
def guarOfTen (s : State) (t : BitVec 8) : Nat := guarOf s ((ringsOf s t).filter fun r => healthy s r)

/-- TEN_SHARE (R158, R159). -/
def doTenShare (m : Mbx) (s : State) : State :=
  runCmd m 0x0302 2 (fun a s =>
    let t : BitVec 8 := fld (argDw a 0) 0 8
    if 256 ≤ (argDw a 0).toNat ∨ t = 0 then answer m stBadArg [] s
    else if (argDw a 1).toNat < guarOfTen s t then answer m stAdmission [] s
    else answer m stOk [] (s.setTenantR t.toNat { s.tenantR t.toNat with share := argDw a 1 })) s

def execTenShare (m : Mbx) (s : State) : Host.Outcome State Fault Refusal := .next (s.run (doTenShare m))

/-- TEN_GRANT sets CTR_USER and SELF_CFG; SELF_CFG of a sealed tenant answers SEALED (Table 9-12). -/
def doTenGrant (m : Mbx) (s : State) : State :=
  runCmd m 0x0303 2 (fun a s =>
    let t : BitVec 8 := fld (argDw a 0) 0 8
    if 256 ≤ (argDw a 0).toNat then answer m stBadArg [] s
    else if sealedTen s t && bitAt (argDw a 1) 1 then answer m stSealed [] s
    else answer m stOk [] (s.setTenantR t.toNat { s.tenantR t.toNat with ctrUser := bitAt (argDw a 1) 0, selfCfg := bitAt (argDw a 1) 1 })) s

def execTenGrant (m : Mbx) (s : State) : Host.Outcome State Fault Refusal := .next (s.run (doTenGrant m))

/-- Another tenant has the handle. -/
def handleTaken (s : State) (t : BitVec 8) (h : DW) : Bool :=
  decide (h ≠ 0) && (List.range 256).any fun u => u ≠ t.toNat && decide ((s.tenantR u).handle = h)

/-- TEN_HANDLE (R236). -/
def doTenHandle (m : Mbx) (s : State) : State :=
  runCmd m 0x0304 2 (fun a s =>
    let t : BitVec 8 := fld (argDw a 0) 0 8
    if 256 ≤ (argDw a 0).toNat ∨ retiredTen s t ∨ handleTaken s t (argDw a 1) then answer m stBadArg [] s
    else if sealedTen s t then answer m stSealed [] s
    else answer m stOk [] (s.setTenantR t.toNat { s.tenantR t.toNat with handle := argDw a 1 })) s

def execTenHandle (m : Mbx) (s : State) : Host.Outcome State Fault Refusal := .next (s.run (doTenHandle m))

/-- Granules that a tenant owns: tenant 0 those that no other has (R63). -/
def granuleCount (s : State) (t : BitVec 8) : Nat :=
  if t = 0 then 4096 - (s.slc.owner.countP fun p => p.2 ≠ 0) else (granulesOf s t).length

/-- The result of TEN_STATUS (R158). -/
def tenStatusRes (s : State) (t : BitVec 8) : List DW :=
  two (tenStatWord s t.toNat) ++
    [if t = 0 then 0xFFFFFFFF#32 else (s.tenantR t.toNat).share, BitVec.ofNat 32 (granuleCount s t)]

def doTenStatus (m : Mbx) (s : State) : State :=
  runCmd m 0x0305 1 (fun a s =>
    if 256 ≤ (argDw a 0).toNat then answer m stBadArg [] s else answer m stOk (tenStatusRes s (fld (argDw a 0) 0 8)) s) s

def execTenStatus (m : Mbx) (s : State) : Host.Outcome State Fault Refusal := .next (s.run (doTenStatus m))

/-! ### Sealing and destroying (R250, R262) -/

/-- A Rewash runs. -/
def rewashing (s : State) : Bool := decide (s.twin.state = .rewash)

/-- DENIED, which no journal keeps; inside a session it is the secured response (R168). -/
def deny (m : Mbx) (s : State) : State := if inSession s m then answer m stDenied [] s else answerBare m stDenied s

/-- The tenant's key slot is quarantined and its UC-U entry open: nothing may return it to service (R289). -/
def keyHeld (s : State) (t : BitVec 8) : Bool := s.fw.qKey.contains t.toNat && openUcu s (uKey t)

/-- TEN_SEAL: steps 1 and 2 of Table 14-2 at once; the rest follows when the halves have drained (R250). A commit that
holds the tenant's entries reaches its flip or its end first, and the row comes again (log entry 131). -/
def doTenSeal (m : Mbx) (s : State) : State :=
  runCmd m 0x0310 0 (fun _ s =>
    let t := mbxTenant m
    if t = 0 || !inSession s m then deny m s
    else if sealedTen s t then answer m stSealed [] s
    else if rewashing s || activating s || tenBusy s t then answer m stBusy [] s
    else if !(s.tenantR t.toNat).coloured ∨ keyHeld s t then answer m stBadArg [] s
    else if commitHolds s t then s
    else afterDlv (waitOn m .seal (sealStart m t s))) s

def execTenSeal (m : Mbx) (s : State) : Host.Outcome State Fault Refusal := .next (s.run (doTenSeal m))

/-- TEN_DESTROY: steps 1 to 3 of Table 14-8 at once; the rest follows when the tenant's work has drained (R262, R263); a
commit is met as TEN_SEAL meets it. -/
def doTenDestroy (m : Mbx) (s : State) : State :=
  runCmd m 0x0311 1 (fun a s =>
    let t : BitVec 8 := fld (argDw a 0) 0 8
    if 256 ≤ (argDw a 0).toNat ∨ t = 0 ∨ keyHeld s t then answer m stBadArg [] s
    else if rewashing s || activating s || tenBusy s t then answer m stBusy [] s
    else if commitHolds s t then s
    else if tenDips s t && dipAsleep s then wakeDips s
    else afterDlv (waitOn m (.destroy t) (destroyStart t s))) s

def execTenDestroy (m : Mbx) (s : State) : Host.Outcome State Fault Refusal := .next (s.run (doTenDestroy m))

end Sys2Proof.Machine
end

