-- ==== Sys2Proof/Machine/Spdm.lean ====
section
/-! DEFINITION. The SPDM responder (R252, R258, R259, R261). Message codes and layouts are those of the SPDM 1.2 standard, which R258 names and
does not repeat (PRESUMED, log entry 133); bytes that depend on secrets, on chance or on certificates are free values (log entry 9). -/

namespace Sys2Proof.Machine

/-! ### The request -/

/-- Byte `i` of the message in MBX_ARG. -/
def msgByte (c : Cmd) (i : Nat) : Byte := fld (argDw c (i / 4)) (8 * (i % 4)) 8

/-- The 16-bit number at byte `i`. -/
def msg16 (c : Cmd) (i : Nat) : BitVec 16 := msgByte c (i + 1) ++ msgByte c i

/-- The request that a RequestResponseCode names. -/
def spdmOfCode (code : Byte) : SpdmReq :=
  match code.toNat with
  | 0x81 => .getDigests
  | 0x82 => .getCertificate
  | 0x83 => .challenge
  | 0x84 => .getVersion
  | 0xE0 => .getMeasurements
  | 0xE1 => .getCapabilities
  | 0xE3 => .negotiateAlgorithms
  | 0xE4 => .keyExchange
  | 0xE5 => .finish
  | _ => .other

/-- The message begins with the ID of the mailbox's session. -/
def inSessionId (mb : Mailbox) (c : Cmd) : Bool := (mb.session.isSome || mb.handshake) && decide (argDw c 0 = mb.sessId)

/-- What CRY finds behind a message: `q` is what a secured message decrypts to under the expected sequence number, or a FINISH that
verifies. None where a message of the session does neither. -/
def spdmRequest (mb : Mailbox) (c : Cmd) (q : SpdmReq) : Option SpdmReq :=
  match q with
  | .secured op args => if mb.session.isSome && inSessionId mb c then some (.secured op args) else clear
  | .finish => if mb.handshake && (inSessionId mb c || decide (msgByte c 1 = 0xE5)) then some .finish else clear
  | _ => clear
where
  clear : Option SpdmReq :=
    if inSessionId mb c then none
    else
      match spdmOfCode (msgByte c 1) with
      | .finish => none
      | r => some r

/-- CRY serves the request: signatures, key exchange and secured messages. -/
def needsCry (q : Option SpdmReq) : Bool :=
  match q with
  | some .challenge | some .getMeasurements | some .keyExchange | some .finish | some (.secured _ _) | none => true
  | _ => false

/-! ### Responses -/

/-- `n` free bytes of the response, from DW `base` of the free value. -/
def freeBytes (s : State) (base n : Nat) : List Byte :=
  ((List.range ((n + 3) / 4)).flatMap fun i => bytesOf (Config.spdmDw s.freeCtr (base + i)) 4).take n

/-- Answers with the bytes of a response, at most 768 (R258). -/
def spdmSay (m : Mbx) (l0 : List Byte) (s : State) : State :=
  let k := mbxKey m
  let mb := s.mailbox k
  let l := l0.take 768
  let w := dwsOfBytes ((l.length + 3) / 4) l
  match mb.cmd with
  | none => s
  | some c =>
    let j : Journal := { opcode := c.opcode, seq := c.seq, status := stOk, res := w, bytes := l.length }
    respondN m stOk w l.length false (s.setMailbox k { mb with journal := some j }).nextFree

/-- A response whose every byte the standard or a secret gives. -/
def spdmFree (s : State) : List Byte := freeBytes s 0 (min 768 (Config.spdmLen s.freeCtr).toNat)

/-- The ERROR message. -/
def spdmError (code data : Byte) : List Byte := [0x12, 0x7F, code, data]

def errInvalidRequest : Byte := 0x01
def errUnsupportedRequest : Byte := 0x07
def errSessionLimitExceeded : Byte := 0x0A
def errVersionMismatch : Byte := 0x41

/-- VERSION: 1.2 only. -/
def versionRsp : List Byte := [0x10, 0x04, 0, 0, 0, 1, 0x00, 0x12]

/-- CAPABILITIES: the flags of Table 14-5 (CERT, CHAL, MEAS 10b, ENCRYPT, MAC, KEY_EX), and 1,024 bytes for both sizes. -/
def capabilitiesRsp (s : State) : List Byte :=
  [0x12, 0x61, 0, 0, 0] ++ freeBytes s 0 1 ++ [0, 0] ++ bytesOf 0x2D6#32 4 ++ bytesOf 1024#32 4 ++ bytesOf 1024#32 4

/-- ALGORITHMS: DMTF measurements in SHA-384, ECDSA P-384, SHA-384; secp384r1, AES-256-GCM, no mutual authentication, the SPDM key
schedule. -/
def algorithmsRsp : List Byte :=
  [0x12, 0x63, 4, 0] ++ bytesOf 52#16 2 ++ [1, 0] ++ bytesOf 0x4#32 4 ++ bytesOf 0x80#32 4 ++ bytesOf 0x2#32 4 ++ List.replicate 12 0 ++
    [0, 0, 0, 0] ++ [2, 0x20] ++ bytesOf 0x10#16 2 ++ [3, 0x20] ++ bytesOf 0x2#16 2 ++ [4, 0x20, 0, 0] ++ [5, 0x20] ++ bytesOf 0x1#16 2

/-- Slot 0 (R259): the length, the root's digest, and the three certificates; the device certificate binds the identity key and names the
serial number. -/
def certChain : List Byte :=
  let root := Config.certificate 0
  let certs := root ++ Config.certificate 1 ++ Config.deviceCert Config.identityKey Config.serial
  bytesOf (BitVec.ofNat 16 (52 + certs.length)) 2 ++ [0, 0] ++ sha384 root ++ certs

/-- DIGESTS: slot mask 0x01 and the digest of the chain. -/
def digestsRsp : List Byte := [0x12, 0x01, 0, 0x01] ++ sha384 certChain

/-- CERTIFICATE: at most 704 bytes of the chain from the offset that the request names (R259). -/
def certificateRsp (c : Cmd) : List Byte :=
  let off := (msg16 c 4).toNat
  let rest := certChain.drop off
  let n := min (min 704 (msg16 c 6).toNat) rest.length
  if fld (msgByte c 2) 0 4 ≠ 0 ∨ rest = [] then spdmError errInvalidRequest 0
  else [0x12, 0x02, 0, 0] ++ bytesOf (BitVec.ofNat 16 n) 2 ++ bytesOf (BitVec.ofNat 16 (rest.length - n)) 2 ++ rest.take n

/-- The summary of the measurements, where the request asks for one. -/
def summaryHash (s : State) (kind : Byte) : List Byte := if kind = 0 then [] else freeBytes s 64 48

/-- CHALLENGE_AUTH: the chain's digest, a nonce, and the identity key's signature. -/
def challengeRsp (c : Cmd) (s : State) : List Byte :=
  [0x12, 0x03, 0, 0x01] ++ sha384 certChain ++ freeBytes s 0 32 ++ summaryHash s (msgByte c 3) ++ [0, 0] ++ freeBytes s 8 96

/-- A measurement block: index, DMTF specification, size, value type, value size, value. -/
def measBlock (index type : Byte) (value : List Byte) : List Byte :=
  [index, 1] ++ bytesOf (BitVec.ofNat 16 (value.length + 3)) 2 ++ [type] ++ bytesOf (BitVec.ofNat 16 value.length) 2 ++ value

/-- The blocks of Table 14-6; the manifest and the security version number are raw bytes. -/
def measBlocks (s : State) : List (List Byte) :=
  [ measBlock 1 0x00 (bytesOf Config.romDigest 48), measBlock 2 0x01 (bytesOf s.fw.image 48), measBlock 3 0x03 (bytesOf s.fw.manifest 48),
    measBlock 4 0x84 (bytesOf s.fw.chain 48 ++ bytesOf (s.fw.extends_.setWidth 32) 4), measBlock 5 0x87 (bytesOf s.fw.svn 8) ]

/-- The blocks that a GET_MEASUREMENTS asks for: none (their number only), all, or one; none of these is an invalid request. -/
def measWanted (s : State) (op : Byte) : Option (List (List Byte)) :=
  if op = 0 then some []
  else if op = 0xFF then some (measBlocks s)
  else ((measBlocks s)[op.toNat - 1]?).map fun b => [b]

/-- MEASUREMENTS (R261): the record, a nonce, and the signature where the request asks for it. -/
def measurementsRsp (c : Cmd) (s : State) : List Byte :=
  match measWanted s (msgByte c 3) with
  | none => spdmError errInvalidRequest 0
  | some bs =>
    let rec_ := bs.flatten
    [0x12, 0x60, if msgByte c 3 = 0 then 5 else 0, 0, BitVec.ofNat 8 bs.length] ++ bytesOf (BitVec.ofNat 24 rec_.length) 3 ++ rec_ ++
      freeBytes s 0 32 ++ [0, 0] ++ (if bitAt (msgByte c 2) 0 then freeBytes s 8 96 else [])

/-- KEY_EXCHANGE_RSP: the responder's half of the session ID, and bytes of the exchange. -/
def keyExchangeRsp (s : State) : List Byte :=
  [0x12, 0x64, 0, 0] ++ freeBytes s 0 2 ++ freeBytes s 1 (min 762 (Config.spdmLen s.freeCtr).toNat)

/-- The session ID that KEY_EXCHANGE makes: the requester's half in [15:0], the responder's in [31:16]. -/
def newSessId (c : Cmd) (s : State) : DW := fld (Config.spdmDw s.freeCtr 0) 0 16 ++ msg16 c 4

/-! ### What a message does -/

/-- The mailbox of a sealed tenant (R252). -/
def sealedMbx (s : State) (m : Mbx) : Bool :=
  match m with
  | .ten t => sealedTen s t
  | .ctl _ => false

/-- KEY_EXCHANGE ends the session that an unsealed mailbox held, and its FINISH is awaited; a sealed one answers SessionLimitExceeded
(R252). -/
def keyExchange (m : Mbx) (c : Cmd) (s : State) : State :=
  if sealedMbx s m then spdmSay m (spdmError errSessionLimitExceeded 0) s
  else
    spdmSay m (keyExchangeRsp s)
      (s.setMailbox (mbxKey m) { s.mailbox (mbxKey m) with session := none, handshake := true, sessId := newSessId c s })

/-- FINISH opens the session of its KEY_EXCHANGE, whose secured messages count from 0. -/
def finishExchange (m : Mbx) (s : State) : State :=
  spdmSay m (spdmFree s)
    (s.setMailbox (mbxKey m) { s.mailbox (mbxKey m) with session := some s.freeCtr, handshake := false, seqIn := 0, seqOut := 0 })

/-- The command inside a secured message. -/
def innerCmd (op : BitVec 16) (args : List DW) : Cmd := { opcode := op, seq := 0, argLen := 4 * args.length, note := false, args }

/-- A secured message carries a Twifomon command; the checks of Table 9-7 apply to it. A SPDM_MSG inside one answers BAD_ARG (log entry
31). -/
def securedMsg (m : Mbx) (op : BitVec 16) (args : List DW) (s : State) : State :=
  let mb := s.mailbox (mbxKey m)
  let c := innerCmd op args
  let s1 := s.setMailbox (mbxKey m) { mb with secured := some c, seqIn := mb.seqIn + 1 }
  if (issuerOf op.toNat).isNone then answer m stNotSupported [] s1
  else if !mayIssue s1 m c then answer m stDenied [] s1
  else if op = 0x0800 then answer m stBadArg [] s1
  else s1

/-- What one SPDM message does; a message in the clear of another version than 1.2 is a mismatch, but for GET_VERSION. -/
def spdmDo (m : Mbx) (c : Cmd) (q : Option SpdmReq) (s : State) : State :=
  match q with
  | some (.secured op args) => securedMsg m op args s
  | some .finish => finishExchange m s
  | some .getVersion => spdmSay m versionRsp s
  | none => spdmSay m (spdmFree s) s
  | some r =>
    if msgByte c 0 ≠ 0x12 then spdmSay m (spdmError errVersionMismatch 0) s
    else
      match r with
      | .getCapabilities => spdmSay m (capabilitiesRsp s) s
      | .negotiateAlgorithms => spdmSay m algorithmsRsp s
      | .getDigests => spdmSay m digestsRsp s
      | .getCertificate => spdmSay m (certificateRsp c) s
      | .challenge => spdmSay m (challengeRsp c s) s
      | .getMeasurements => spdmSay m (measurementsRsp c s) s
      | .keyExchange => keyExchange m c s
      | _ => spdmSay m (spdmError errUnsupportedRequest (msgByte c 1)) s

/-- SPDM_MSG: 1 to 1,024 bytes; a request that CRY serves waits for CRY. -/
def doSpdmMsg (m : Mbx) (q : SpdmReq) (s : State) : State :=
  if inSession s m then s
  else
    runCmd m 0x0800 0 (fun c s =>
      let r := spdmRequest (s.mailbox (mbxKey m)) c q
      if c.argLen = 0 then answer m stBadArg [] s
      else if needsCry r && !domOn s dCry then wake dCry s
      else spdmDo m c r (perf dMgt 0x52 s)) s

def execSpdmMsg (m : Mbx) (req : SpdmReq) (s : State) : Host.Outcome State Fault Refusal := .next (s.run (doSpdmMsg m req))

end Sys2Proof.Machine
end

