-- ==== Sys2Proof/Machine/Trust.lean ====
section
/-! DEFINITION. Firmware: staging, activation, fallback (file 14). -/

namespace Sys2Proof.Machine

/-! ### Firmware (R264–R266) -/

/-- FW_STAGE answers BUSY where FW_ACTIVATE would (R265): Table 9-14 lists the status and R264 no case of it (DESIGN CHOICE, log entry 135). -/
def stageBusy (s : State) : Bool := rewashing s || anyTenBusy s

/-- Arguments that FW_STAGE refuses before it reads anything: an address that is not 4 KiB aligned, or more than 192 KiB (R264). -/
def imageRefused (c : Cmd) : Bool := decide (fld (arg64 c 0) 0 12 ≠ 0) || decide (192 < (argDw c 2).toNat)

/-- An image that FW_STAGE refuses (R264). One that cannot be read does not verify (log entry 32). -/
def imageBad (s : State) (i : FwImage) : Bool := !i.readOk || !i.sigOk || decide (i.svn.toNat < s.fw.svn.toNat)

/-- FW_STAGE reads an image through the read channel, holds it where it verifies, and answers its digest. -/
def doFwStage (m : Mbx) (i : FwImage) (s : State) : State :=
  runCmd m 0x0810 3 (fun c s =>
    if stageBusy s then answer m stBusy [] s
    else if imageRefused c then answer m stBadArg [] s
    else
      let s1 := readImage (arg64 c 0) i.readOk (argDw c 2).toNat s
      if imageBad s i then answer m stBadArg [] s1
      else answer m stOk (dwsOf i.digest 12) (s1.upFw fun f => { f with staged := some i, stagedOk := true })) s

def execFwStage (m : Mbx) (img : FwImage) (s : State) : Host.Outcome State Fault Refusal := .next (s.run (doFwStage m img))

/-- A commit that has passed admission has not reached its flip (Table 14-9, step 1). -/
def commitOpen (s : State) : Bool :=
  s.fw.prepared.isSome || match s.fw.commit with | some c => c.stage ≠ .ack | none => false

/-- The image that runs. -/
def activeImage (s : State) : FwImage :=
  { readOk := true, sigOk := true, lenKiB := 0, svn := s.fw.svn, version := s.fw.version, digest := s.fw.image, manifest := s.fw.manifest }

/-- Steps 2 to 4 of Table 14-9. -/
def exchange (m : Mbx) (i : FwImage) (s : State) : State :=
  let s1 := waitOn m .activate (s.upFw fun f =>
    { f with phase := .exchanging, activateMbx := some m, fallback := some (activeImage s), asks := f.asks.map fun x => { x with mbx := none } })
  extendImage i.digest i.manifest (restartOthers (mbxKey m) s1)

/-- The checks and step 1 of FW_ACTIVATE, then the exchange. -/
def activate (m : Mbx) (s : State) : State :=
  if rewashing s || anyTenBusy s then answer m stBusy [] s
  else
    match s.fw.staged with
    | some i => if !s.fw.stagedOk then answer m stBadArg [] s else if commitOpen s then waitOn m .activateWait s else exchange m i s
    | none => answer m stBadArg [] s

/-- FW_ACTIVATE (R265), also where it waits at step 1 for a commit and its row comes again. -/
def doFwActivate (m : Mbx) (s : State) : State :=
  if (s.mailbox (mbxKey m)).busy = .activateWait then (if fwReady s then activate m s else s)
  else runCmd m 0x0811 0 (fun _ s => activate m s) s

def execFwActivate (m : Mbx) (s : State) : Host.Outcome State Fault Refusal := .next (s.run (doFwActivate m))

/-- FW_ACTIVATE_READY: step 5; the image that was staged is the active one (log entry 33). -/
def doFwActivateReady (s : State) : State :=
  match s.fw.activateMbx, s.fw.staged with
  | some m, some i =>
    if s.fw.phase = .exchanging ∧ powered s = true then
      let s1 := s.upFw fun f =>
        { f with version := i.version, svn := i.svn, image := i.digest, manifest := i.manifest, staged := none, stagedOk := false,
                 exchanges := f.exchanges + 1, activateMbx := none, phase := .ready }
      fwUp (answer m stOk [i.version] s1)
    else s
  | _, _ => s

def execFwActivateReady (s : State) : Host.Outcome State Fault Refusal := .next (s.run doFwActivateReady)

/-- FW_FALLBACK: the ROM restarts the fallback copy, and the staged image is unverified; READY follows with FW_RESTART_READY (R266). -/
def doFwFallback (s : State) : State :=
  match s.fw.fallback with
  | some i =>
    if s.fw.phase = .exchanging ∧ powered s = true then
      let s1 := extendImage i.digest i.manifest (s.upFw fun f =>
        { f with phase := .restarting, stagedOk := false, activateMbx := none, exchanges := f.exchanges + 1 })
      restartAll s1
    else s
  | none => s

def execFwFallback (s : State) : Host.Outcome State Fault Refusal := .next (s.run doFwFallback)

/-- The result of FW_STATUS: the active version takes all of DW0 (R338), and Table 9-14 leaves no bit for staged and verified (log entry
30). -/
def fwStatusRes (s : State) : List DW := [s.fw.version, BitVec.ofNat 32 (recentRestarts s).length]

def doFwStatus (m : Mbx) (s : State) : State := runCmd m 0x0812 0 (fun _ s => answer m stOk (fwStatusRes s) s) s

def execFwStatus (m : Mbx) (s : State) : Host.Outcome State Fault Refusal := .next (s.run (doFwStatus m))

end Sys2Proof.Machine
end

