-- ==== Sys2Proof/Machine/Rtp.lean ====
section
/-! DEFINITION. The register target port: the register gate and what each write does (files 02, 05, 18). -/

namespace Sys2Proof.Machine

/-! ### The access -/

/-- Alignment of R32: 8-byte accesses on 8 bytes, 4-byte accesses on 4. -/
def rtpAligned (q : RtpReq) : Bool := if q.size8 then decide (q.offset.toNat % 8 = 0) else decide (q.offset.toNat % 4 = 0)

/-- The part of the register that an aligned access reaches. -/
def rtpAcc (q : RtpReq) : Acc := if q.size8 then .w8 else if q.offset.toNat % 8 = 0 then .lo else .hi

/-- Offset of the 8-byte word. -/
def rtpWord (q : RtpReq) : Nat := q.offset.toNat - q.offset.toNat % 8

/-- Bytes of the access. -/
def rtpLen (q : RtpReq) : Nat := if q.size8 then 8 else 4

/-- What an access returns of a register that reads `w`: a 4-byte read has its data in the low half (Table 2-7). -/
def accRead (a : Acc) (w : Reg64) : Reg64 :=
  match a with
  | .w8 => w
  | .lo => w &&& 0xFFFFFFFF#64
  | .hi => w >>> 32

/-- ACCESS code of a register access (Table 5-6). -/
def rtpAccess (q : RtpReq) : BitVec 4 := if q.write then (if q.size8 then 3 else 2) else if q.size8 then 1 else 0

/-- The report of a register-gate fault. -/
def rtpViol (q : RtpReq) (kind : Byte) (region : Option Nat) : Viol :=
  { kind, gate := 1, unit := 0, access := rtpAccess q, addr := q.offset.setWidth 64, reqid := q.rq.reqid, port := q.rq.port,
    colour := q.rq.colour, region, data := if q.write then lo32 q.data else 0 }

/-- A response of the port. -/
def rtpAnswer (w : Reg64) (st : RtpStatus) (s : State) : State := s.emit (rtpOut w st)

/-- STATUS FAULT, with one report charged by colour (R94, R96). -/
def rtpFault (q : RtpReq) (kind : Byte) (region : Option Nat) (s : State) : State :=
  rtpAnswer 0 .fault (report (rtpViol q kind region) (tenantOfColour s q.rq.colour) s)

/-- The report of an access that sealing refuses: charged to tenant 0, without address (R103, R251). -/
def sealedReport (q : RtpReq) (s : State) : State := report { rtpViol q vSealed none with addr := 0 } 0 s

/-- STATUS FAULT, kind SEALED. -/
def rtpSealed (q : RtpReq) (s : State) : State := rtpAnswer 0 .fault (sealedReport q s)

/-! ### The register gate (R90, R91, R251, R103) -/

/-- Usable regions of the register gate, in ascending number, with the bytes of the access. -/
def rtpRegions (s : State) (q : RtpReq) : List Nat :=
  (gateKeys s 1).filter fun k => regUsable s k && regHas (s.region k) q.offset.toNat (rtpLen q)

/-- R91's decision for the expert pages and the control mailboxes. -/
def expertDecide (s : State) (q : RtpReq) : GateRes :=
  let ks := rtpRegions s q
  let zero := fun k => decide (regTen (s.region k) = 0)
  let mine := fun k => decide (regColour (s.region k) = q.rq.colour)
  match ks.find? fun k => zero k && mine k with
  | some k => .lets k
  | none =>
    match ks.find? fun k => !zero k && mine k with
    | some k => .fault vColour (some (k % 4096))
    | none =>
      match ks.find? zero with
      | some k => .fault vColour (some (k % 4096))
      | none => .fault vNoRegion none

/-- The decision on an aligned access that R90 does not settle. -/
def rtpDecide (s : State) (q : RtpReq) : GateRes :=
  if q.offset.toNat < 0x88000 then expertDecide s q
  else gateDecide s 1 q.offset.toNat (rtpLen q) [q.rq.colour]

/-- The tenant whose ring control entry, scan word or tenant page a register lies in (R251). -/
def regTenant (s : State) : Reg → Option (BitVec 8)
  | .lnCons r | .lnRunlvl r | .lnEoi r | .lnProd r | .lnStat r => some (ringTen (ringNow s r))
  | .scanWord g => some (s.owner g)
  | .lcons t | .lprod t | .lstat t | .tenStat t | .violLast t _ | .tenCounter t _ => some (BitVec.ofNat 8 t)
  | .counter off => if 0x100000 ≤ off then some (BitVec.ofNat 8 ((off - 0x100000) / 0x1000)) else none
  | .mbxCmd m | .mbxRsp m | .mbxStat m | .mbxNote m | .mbxArg m _ | .mbxRes m _ => match m with | .ten t => some t | .ctl _ => none
  | _ => none

/-- R251 for an access through a region of tenant `ten`. -/
def sealedTarget (s : State) (ten : BitVec 8) (r : Reg) : Bool :=
  match regTenant s r with
  | some t => sealedTen s t && decide (t ≠ ten)
  | none => false

/-- A ring entry with word `k` replaced. -/
def setRingWord (e : RingEnt) (k : Nat) (w : Reg64) : RingEnt :=
  ringClean (if k = 0 then { e with w0 := w } else if k = 1 then { e with w1 := w } else if k = 2 then { e with w2 := w } else { e with w3 := w })

/-- The ring entry that the expert registers show. -/
def rstgEntry (s : State) : RingEnt := s.dlv.rstg.getD (ringNow s s.dlv.rstgSel.toNat)

/-- A region with word `k` replaced. -/
def setRegionWord (r : Region) (k : Nat) (w : Reg64) : Region :=
  regClean (if k = 0 then { r with lo := w } else if k = 1 then { r with hi := w } else { r with attr := w })

/-- R103's refusals at the expert registers of a sealed tenant's entries. -/
def expertSealed (s : State) (q : RtpReq) (r : Reg) : Bool :=
  let a := rtpAcc q
  match r with
  | .srcEntry =>
    sealedTen s (srcTen (srcNow s s.slc.selSrc.toNat)) ||
      (q.write && sealedTen s (srcTen (accMerge a (srcEntryWord s) q.data)))
  | .stgW k =>
    q.write &&
      match stgKey s with
      | some j =>
        sealedTen s (regTen (s.region j)) ||
          sealedTen s (regTen (setRegionWord (stgRegion s) k (accMerge a (stgWord s k) q.data)))
      | none => false
  | .rstgW k =>
    sealedTen s (ringTen (ringNow s s.dlv.rstgSel.toNat)) ||
      (q.write && sealedTen s (ringTen (setRingWord (rstgEntry s) k (accMerge a (ringWord (rstgEntry s) k) q.data))))
  | _ => false

/-- Slices whose SRAM the access needs (R315). -/
def needsSlices (s : State) (q : RtpReq) (r : Reg) : List Nat :=
  let a := rtpAcc q
  match r with
  | .maskOp => if q.write && accOne a q.data 63 then [sliceOf (fld (accMerge a (maskOpWord s) q.data) 0 18)] else []
  | .srcCtl => if q.write && accOne a q.data 0 then [sliceOf s.slc.selSrc] else []
  | .srcEntry => [sliceOf s.slc.selSrc]
  | .lnEoi _ => if q.write && a ≠ .hi then [sliceOf (fld (accData a q.data) 0 18)] else []
  | .scanWord g => if q.write then [] else ((List.range 64).map fun i => sliceOf (BitVec.ofNat 18 (64 * g + i))).eraseDups
  | _ => []

/-- Slices among those that are gated. -/
def gatedOf (s : State) (l : List Nat) : List Nat := l.filter fun sl => !domOn s (dSlc sl)

/-! ### Ring control (R107, R131, R132, R321) -/

/-- Rearm (R132); in pending scan ARM is set in place of the notification (R119). -/
def rearm (r : Nat) (s : State) : State :=
  let h := { s.half r with nlvl := none }
  let s1 := s.setHalf r h
  if h.prod ≠ h.cons ∧ healthy s1 r = true ∧ s.glb.ranking = true then notify r h.lastLvl (ringNow s1 r) (s1.setHalf r { h with arm := false })
  else s1.setHalf r { h with arm := true }

/-- The consumer index of R131, and what the room it gives sets free. -/
def consTo (r : Nat) (c : BitVec 31) (s : State) : State :=
  if ((s.half r).prod - c).toNat ≤ halfSize s r then presentResidues r (noteFull r (s.setHalf r { s.half r with cons := c }))
  else bump (dlvPage + 0x0B0) s

/-- A write of LN_CONS. -/
def writeCons (r : Nat) (w : Reg64) (s : State) : State :=
  let s1 := consTo r (fld w 0 31) s
  afterDlv (if bitAt w 31 then rearm r s1 else s1)

/-- A write of LN_RUNLVL: 17 to 31 store 16 (Table 6-6). -/
def writeRunlvl (r : Nat) (w : Reg64) (s : State) : State :=
  let v : BitVec 5 := fld w 0 5
  s.setHalf r { s.half r with runlvl := if 16 < v.toNat then 16 else v }

/-- A write of LN_EOI of ring `r` (R107). -/
def writeEoi (r : Nat) (w : Reg64) (s : State) : State :=
  let src : BitVec 18 := fld w 0 18
  let k := src.toNat
  let st := (s.dyn k).st
  if srcTen (srcNow s k) = ringTen (ringNow s r) ∧ (st = .active ∨ st = .activePending) then afterDlv (complete k s)
  else bump (slcPage (sliceOf src) + 0x038) s

/-! ### Tacks (R296–R298) -/

/-- The requester holds Tack `n`. -/
def holdsTack (t : Tack) (ten : BitVec 8) (q : Rq) : Bool :=
  t.st = .held && decide (t.ten = ten) && decide (t.port = q.port) && decide (t.reqid = q.reqid)

/-- The lease as it starts now. -/
def leaseEnd (s : State) (t : Tack) : Option (BitVec 64) :=
  if t.lease = 0 then none else some (s.glb.now + BitVec.ofNat 64 (1000 * t.lease.toNat))

/-- The reader becomes the holder. -/
def acquire (n : Nat) (ten : BitVec 8) (q : Rq) (s : State) : State :=
  let t := s.tackAt n
  perf 0 0x73 (s.setTack n
    { t with st := .held, ten, port := q.port, reqid := q.reqid, gen := t.gen + 1, endAt := leaseEnd s t })

/-- A read of TK_ACQ: RESULT, and the state after it (R297). -/
def tackRead (n : Nat) (ten : BitVec 8) (q : Rq) (s : State) : BitVec 2 × State :=
  let t := s.tackAt n
  match t.st with
  | .free => (1, acquire n ten q s)
  | .broken => (2, acquire n ten q s)
  | .held => if holdsTack t ten q then (3, s.setTack n { t with endAt := leaseEnd s t }) else (0, s)

/-- A write of TK_REL: REL from the holder frees the Tack, BREAK through a tenant-0 region breaks a held one. -/
def tackRel (n : Nat) (ten : BitVec 8) (q : Rq) (w : Reg64) (s : State) : State :=
  let t := s.tackAt n
  if bitAt w 0 && holdsTack t ten q then s.setTack n { t with st := .free, endAt := none }
  else if bitAt w 1 && decide (ten = 0) then breakTack n 3 s
  else s

/-- A write of TK_LEASE by the holder or through a tenant-0 region (R298). -/
def tackLease (n : Nat) (ten : BitVec 8) (q : Rq) (w : DW) (s : State) : State :=
  let t := s.tackAt n
  if ten = 0 ∨ holdsTack t ten q = true then s.setTack n { t with lease := w } else s

/-! ### Mailbox registers (R165, R166, R170) -/

/-- The command that MBX_CMD's fields spell. -/
def cmdOf (w : Reg64) : Cmd := { opcode := fld w 0 16, seq := fld w 16 16, argLen := (fld w 32 11).toNat, note := bitAt w 43, args := [] }

/-- A write of MBX_CMD: GO starts a command, or is held behind the one that runs; while Twifomon restarts it is answered at once. -/
def writeMbxCmd (m : Mbx) (a : Acc) (data : Reg64) (s : State) : State :=
  let k := mbxKey m
  let mb := s.mailbox k
  let w := accMerge a (mbxCmdWord mb) data
  if accOne a data 63 then
    if mb.go then s.setMailbox k { mb with held := some (cmdOf w) }
    else
      let s1 := s.setMailbox k (loadCmd mb (cmdOf w))
      if goRestarts s then respond m stRestarting [] false s1 else s1
  else if mb.go then s
  else
    let c := cmdOf w
    s.setMailbox k { mb with opcode := c.opcode, seq := c.seq, argLen := fld w 32 11, note := c.note }

/-- A write of MBX_ARG, discarded between GO and ARGS_TAKEN. -/
def writeMbxArg (m : Mbx) (i : Nat) (a : Acc) (data : Reg64) (s : State) : State :=
  let k := mbxKey m
  let mb := s.mailbox k
  if mb.busy ≠ .idle ∧ mb.cmd = none then s
  else
    let w := accMerge a (reg64 (Tbl.get zeroD mb.arg (2 * i)) (Tbl.get zeroD mb.arg (2 * i + 1))) data
    s.setMailbox k { mb with arg := Tbl.set zeroD (Tbl.set zeroD mb.arg (2 * i) (lo32 w)) (2 * i + 1) (hi32 w) }

/-! ### Error registers (R290, R295) -/

/-- Puts an entry into its place in LSEQ order. -/
def insertSeq (s : State) (e : Nat) : List Nat → List Nat
  | [] => [e]
  | h :: r => if lseqBefore (lseqOf s e) (lseqOf s h) then e :: h :: r else h :: insertSeq s e r

/-- The latest copy asked for has not completed OK. -/
def needsCopy (s : State) (e : Nat) : Bool :=
  match s.logEnt e with
  | some x => x.copyNo ≠ 0 && !x.copyOk
  | none => false

/-- Entries whose latest copy has not completed OK, in LSEQ order. -/
def uncopied (s : State) : List Nat := ((List.range 64).filter (needsCopy s)).foldl (fun l e => insertSeq s e l) []

/-- An entry that only waits for its copy is freed. -/
def freeAcked (e : Nat) (s : State) : State :=
  match s.logEnt e with
  | some x => if x.acked || decide (x.form = 0xF) then s.setLogEnt e none else s
  | none => s

/-- A write of ERR_RING_BASE restarts the ring and copies again; with the ring disabled, acknowledged entries are freed (R286). -/
def writeErrBase (w : Reg64) (s : State) : State :=
  let z : BitVec 4 := fld w 0 4
  let s1 := (takeBackCopies s).upLog fun l =>
    { l with base := fld w 12 52, size := if 8 < z.toNat then 8 else z, cons := 0, prod := 0, faulted := false,
             copyQ := l.copyQ.filter fun c => match c with | .entry _ _ => false | _ => true }
  if errRingOn s1 then (uncopied s1).foldl (fun s e => askCopy e s) s1
  else
    let s2 := (List.range 63).foldl (fun s e => freeAcked e s) (s1.upLog fun l => { l with copyQ := [] })
    if s2.log.bypass then s2 else summarise s2

/-- A write of ERR_RING_CONS under the rule of R131. -/
def writeErrCons (c : BitVec 31) (s : State) : State :=
  if (s.log.prod - c).toNat ≤ errRingRecs s then s.upLog fun l => { l with cons := c } else s

/-- A write of TLY_LCONS under the rule of R131; FINAL Tickets that waited for room go (R277, R279). -/
def writeLcons (t : Nat) (c : BitVec 31) (s : State) : State :=
  let l := s.ledgerAt t
  if (l.prod - c).toNat ≤ ledgerSize l then drainFinals (s.setLedger t { l with cons := c }) else s

/-- RESTART written while Twifomon is halted (R295). -/
def coreRestart (s : State) : State :=
  if s.fw.phase = .halted then (restartFw (s.upFw fun f => { f with restarts := [] })).upFw fun f => { f with coreRestart := true } else s

/-! ### Expert operations (R110–R112, R102, R125, R325) -/

/-- GO of SLC_MASK_OP for the fields just written. -/
def maskGo (q : RtpReq) (s : State) : State :=
  let src := s.slc.maskSrc
  let k := src.toNat
  if s.slc.maskRun.isSome then s
  else if sealedTen s (srcTen (srcNow s k)) then (sealedReport q s).upSlc fun c => { c with maskResult := 1 }
  else if (s.dyn k).st = .quarantined then s.upSlc fun c => { c with maskResult := 2 }
  else settleMbx ((maskOp k s.slc.maskValue s).upSlc fun c => { c with maskRun := some src })

/-- A write of SLC_MASK_OP. -/
def writeMaskOp (q : RtpReq) (s : State) : State :=
  let a := rtpAcc q
  let w := accMerge a (maskOpWord s) q.data
  let s1 := s.upSlc fun c => { c with maskSrc := fld w 0 18, maskValue := bitAt w 18 }
  if accOne a q.data 63 then maskGo q s1 else s1

/-- The carry that an install gives an outstanding event (R325). A captured event takes none (R307). -/
def installCarry (s : State) (k : Nat) (e : Ev) : Ev :=
  if e.carry.isNone && !e.capture then { e with carry := some (evEntry s k e) } else e

/-- Carries that the install of source `k` takes. -/
def installNeeds (s : State) (k : Nat) : Nat :=
  ((s.dyn k).ev.toList ++ (s.dyn k).rep.toList).countP fun e => e.carry.isNone && !e.capture

/-- Installs entry `e` for source `k` (R325). -/
def installEntry (k : Nat) (e : SrcEntry) (s : State) : State :=
  let d := s.dyn k
  let s1 := s.setDyn k { d with ev := d.ev.map (installCarry s k), rep := d.rep.map (installCarry s k), tagPort := srcPort e }
  (s1.setMain k e).setShadow k ((s1.shadow k).map fun sh => { sh with entry := e })

/-- RESULT of SLC_SRC_CTL. -/
def srcResult (v : BitVec 2) (s : State) : State := s.upSlc fun c => { c with srcResult := v }

/-- GO of SLC_SRC_CTL (Table 18-10). -/
def srcGo (q : RtpReq) (s : State) : State :=
  let k := s.slc.selSrc.toNat
  match s.slc.staged with
  | none => srcResult 0 s
  | some e =>
    if sealedTen s (srcTen (srcNow s k)) || sealedTen s (srcTen e) then srcResult 1 (sealedReport q s)
    else if (s.dyn k).st = .quarantined then srcResult 2 s
    else if 16384 < carriesUsed s + installNeeds s k then srcResult 3 s
    else afterDlv (settleLatches (srcResult 0 ((installEntry k (srcClean e) s).upSlc fun c => { c with staged := none })))

/-- RESULT of DLV_RSTG_CTL. -/
def rstgResult (v : BitVec 2) (s : State) : State := s.upDlv fun d => { d with rstgResult := v }

/-- Installs a ring entry without an epoch: both versions take it, so it applies to every event not yet granted (R125). -/
def installExpert (r : Nat) (e : RingEnt) (s : State) : State :=
  let go := restarts s r e && !(s.half r).quarantined
  let s1 := s.setRingV r { s.ringV r with cur := e, prior := e }
  skipDisabled r (if go then restartHalf r s1 else s1)

/-- The checks of a control mailbox on a ring entry (R124, R263, R322). -/
def rstgOk (s : State) (r : Nat) (e : RingEnt) : Bool := ringFields s e && ringFree s Txn.empty r e && !retiredTen s (ringTen e)

/-- GO of DLV_RSTG_CTL (Table 7-3). Where several refusals apply, the table gives no order: the model shows 01 before 11 before 10 (DESIGN
CHOICE, log entry 130). -/
def rstgGo (q : RtpReq) (s : State) : State :=
  let r := s.dlv.rstgSel.toNat
  match s.dlv.rstg with
  | none => rstgResult 0 s
  | some e =>
    if sealedTen s (ringTen (ringNow s r)) || sealedTen s (ringTen e) then rstgResult 1 (sealedReport q s)
    else if !rstgOk s r e then rstgResult 3 s
    else if healthy s r && ringMoves e (ringNow s r) then rstgResult 2 s
    else afterDlv (rstgResult 0 ((installExpert r e s).upDlv fun d => { d with rstg := none }))

/-- Stages word `k` of the selected region; where nothing is selected the write does nothing. -/
def stageRegion (k : Nat) (a : Acc) (data : Reg64) (s : State) : State :=
  match stgKey s with
  | some j => s.setStagedRegion j (some (setRegionWord (stgRegion s) k (accMerge a (stgWord s k) data)))
  | none => s

/-! ### Writes (R314, R316) -/

/-- A write to a counter: COUNT is RW (R84). -/
def writeCounter (off : Nat) (a : Acc) (data : Reg64) (s : State) : State :=
  if pageOff s off then s else s.setCnt off (fld (accMerge a (at64 (s.cnt off) 0) data) 0 48)

/-- A write to CTR_VALk: COUNT takes the data, and WRAP clears under its tag (Table 15-7, R317). -/
def writePctr (i : Nat) (a : Acc) (data : Reg64) (s : State) : State :=
  let f := (wrapFlag s i).swClear (accOne a data 48) (fld (accData a data) 52 4)
  let c := s.pctr i
  s.setPctr i { count := fld (accMerge a (at64 c.count 0) data) 0 48, wrap := f.set, tag := f.tag }

/-- The access reaches the register's low half, where it acts with the merged value. -/
def onLow (a : Acc) (f : State → State) (s : State) : State := if a = .hi then s else f s

/-- What a write of a register does, through a region of tenant `ten`. Registers whose fields are all RO discard it (R313). -/
def writeReg (q : RtpReq) (ten : BitVec 8) (r : Reg) (s : State) : State :=
  let a := rtpAcc q
  let d := q.data
  let w := accData a d
  match r with
  | .prfSel => onLow a (setProfile (fld w 0 2)) s
  | .twin => setTakeoverFlag s ((takeoverFlag s).swClear (accOne a d 5) (fld w 8 4))
  | .timeStat => setStallFlag s ((stallFlag s).swClear (accOne a d 0) (fld w 4 4))
  | .paceStat => setShortFlag s ((shortFlag s).swClear (accOne a d 0) (fld w 4 4))
  | .weight k => s.setWeight k (accMerge a (s.weight k) d)
  | .errBase => writeErrBase (accMerge a (at64 s.log.size 0 ||| at64 s.log.base 12) d) s
  | .errCons => onLow a (writeErrCons (fld w 0 31)) s
  | .coreCtl => if accOne a d 0 then coreRestart s else s
  | .counter off => writeCounter off a d s
  | .tenCounter _ off => if ten = 0 then writeCounter off a d s else s
  | .maskOp => writeMaskOp q s
  | .srcSel => s.upSlc fun c => { c with selSrc := fld (accMerge a (at64 c.selSrc 0) d) 0 18, staged := none }
  | .srcEntry => s.upSlc fun c => { c with staged := some (accMerge a (srcEntryWord s) d &&& 0x03FFFFFFFFFFFFFF#64) }
  | .srcCtl => if accOne a d 0 then srcGo q s else s
  | .lvlMap => s.upDlv fun v => { v with lvlMap := accMerge a v.lvlMap d }
  | .arbCfg => onLow a (fun s => s.upDlv fun v => { v with nth := if (fld w 0 8).toNat < 2 then 2 else fld w 0 8 }) s
  | .rstgSel => s.upDlv fun v => { v with rstgSel := fld (accMerge a (at64 v.rstgSel 0) d) 0 15, rstg := none }
  | .rstgW k => s.upDlv fun v => { v with rstg := some (setRingWord (rstgEntry s) k (accMerge a (ringWord (rstgEntry s) k) d)) }
  | .rstgCtl => if accOne a d 0 then rstgGo q s else s
  | .paceCfg => onLow a (fun s => s.upDlv fun v => { v with floor := fld w 0 16 }) s
  | .stgSel => s.upGates fun g => { g with stgSel := fld (accMerge a (at64 g.stgSel 0) d) 0 14 }
  | .stgW k => stageRegion k a d s
  | .gtUpd => if accOne a d 0 then s.upGates fun g => { g with go := true } else s
  | .laneCfg => if s.pwr.straps.lanes = 0 then s else setLaneCfg (fld (accMerge a (at64 s.twin.laneCfg 0) d) 0 24) s
  | .sessSel => if ownBlk s = 0x7FF then s else s.upRelay fun y => { y with sessSel := fld (accMerge a (at64 y.sessSel 0) d) 0 12 }
  | .ctrSel k => s.setCtrSel k (accMerge a (s.ctrSel k) d)
  | .ctrVal i => writePctr i a d s
  | .mbxCmd m => writeMbxCmd m a d s
  | .mbxNote m =>
    let v := accMerge a (mbxNoteWord (s.mailbox (mbxKey m))) d
    s.setMailbox (mbxKey m) { s.mailbox (mbxKey m) with noteSrc := fld v 0 18, noteValid := bitAt v 18 }
  | .mbxArg m i => writeMbxArg m i a d s
  | .lcons t => onLow a (writeLcons t (fld w 0 31)) s
  | .lnCons n => onLow a (writeCons n w) s
  | .lnRunlvl n => onLow a (writeRunlvl n w) s
  | .lnEoi n => onLow a (writeEoi n w) s
  | .tkRel n => onLow a (tackRel n ten q.rq w) s
  | .tkLease n => onLow a (tackLease n ten q.rq (lo32 w)) s
  | .glbId | .glbStrap | .fwBase | .boot | .resetR | .pwrStat | .scan | .epoch | .timeNow | .meas _ | .measCnt | .errProd | .errStat
  | .errSum | .errLost | .logfail _ | .logWord _ _ | .poolUsed _ | .linkStat | .sessStat | .cryStat | .mbxRsp _ | .mbxStat _ | .mbxRes _ _
  | .lprod _ | .lstat _ | .tenStat _ | .violLast _ _ | .lnProd _ | .lnStat _ | .tkAcq _ | .tkStat _ | .scanWord _ => s

/-- What a read of a register answers, with the state after it: only TK_ACQ acts. -/
def readActs (q : RtpReq) (ten : BitVec 8) (r : Reg) (s : State) : Reg64 × State :=
  match r with
  | .tkAcq n =>
    let p := tackRead n ten q.rq s
    (at64 p.1 0 ||| tackHolder (p.2.tackAt n), p.2)
  | _ => (readReg s ten r, s)

/-! ### One request (R32–R34, R90) -/

/-- The handshake is complete: one RTP request counted. -/
def rtpTaken (s : State) : State := perf 0 0x70 (perfUnit 0 1 s)

/-- An admitted request with the slices it needs awake. -/
def rtpServe (q : RtpReq) (ten : BitVec 8) (r : Reg) (s : State) : State :=
  if q.write then rtpAnswer 0 .ok (writeReg q ten r s)
  else
    let p := readActs q ten r s
    rtpAnswer (accRead (rtpAcc q) p.1) .ok p.2

/-- Replaces the requests that wait at the port. -/
def setRtpHeld (l : List RtpReq) (s : State) : State := s.upGates fun g => { g with rtpHeld := l }

/-- A request that the gate has admitted under region `k`: sealing, gated slices, then its effect. While a slice wakes, the request waits
at the port ahead of all others (R315). -/
def rtpAdmitted (q : RtpReq) (k : Nat) (r : Reg) (s : State) : State :=
  let ten := regTen (s.region k)
  if sealedTarget s ten r || expertSealed s q r then rtpSealed q (rtpTaken s)
  else
    match gatedOf s (needsSlices s q r) with
    | [] => rtpServe q ten r (rtpTaken s)
    | l => setRtpHeld (q :: s.gates.rtpHeld) (l.foldl (fun s sl => wake (dSlc sl) s) s)

/-- The request at the head of the port. -/
def rtpOne (q : RtpReq) (s : State) : State :=
  if !q.rq.parityOk then portParity pRtp (rtpAnswer 0 .parity (rtpTaken s))
  else if !rtpAligned q then rtpFault q vAlign none (rtpTaken s)
  else
    match regAt (rtpWord q) with
    | none => if q.write then rtpFault q vRsvdWrite none (rtpTaken s) else rtpAnswer 0 .ok (rtpTaken s)
    | some r =>
      if !q.write && decide (q.offset.toNat < 0x1000) then rtpServe q 0 r (rtpTaken s)
      else
        match rtpDecide s q with
        | .fault kind reg => rtpFault q kind reg (rtpTaken s)
        | .lets k => rtpAdmitted q k r s

/-- A request of the register target port. It waits behind those that wait already (R33), and while the ports do not acknowledge
(R48). -/
def doRtp (q : RtpReq) (s : State) : State :=
  if !accepting s || !s.gates.rtpHeld.isEmpty then setRtpHeld (s.gates.rtpHeld ++ [q]) s else rtpOne q s

/-- The requests that wait at the port are served in order, at most `n` of them, until one must wait on. -/
def serveRtp : Nat → State → State
  | 0, s => s
  | n + 1, s =>
    match s.gates.rtpHeld with
    | [] => s
    | q :: rest =>
      let t := rtpOne q (setRtpHeld rest s)
      if t.gates.rtpHeld = rest then serveRtp n t else t

/-- The port goes on where something waits at it. -/
def rtpGoes (s : State) : State := if accepting s then serveRtp s.gates.rtpHeld.length s else s

end Sys2Proof.Machine
end

