-- ==== Sys2Proof/Machine/Ready.lean ====
section
/-! DEFINITION. The commands after which requests that wait at a port proceed: a domain becomes ready, capture begins, a warm reset is
released; and the gating of a slice, which a waiting request forbids (files 02, 03, 17). -/

namespace Sys2Proof.Machine

/-- What waits for a domain proceeds: a DIP serves its pins (R25), a slice the register target port (R315), SMT trains once capture has
begun (R195, Table 17-3), CRY counts its idle time from here and
the sealed records that have waited for it (R327), and in MGT the ROM begins its fetch (Table 17-4). -/
def domainServes (d : Nat) (s : State) : State :=
  if 1 ≤ d ∧ d ≤ 16 then serveHeld (d - 1) s
  else if d ≤ 24 then rtpGoes s
  else if d = dSmt then (if accepting s then trainTwin s else s)
  else if d = dCry then bumpBy 0x78008 (cryWaiting s) (s.upFw fun f => { f with cryIdle := s.glb.now })
  else if d = dMgt then (if s.fw.phase = .boot then s.upFw fun f => { f with stage := 1 } else s)
  else s

/-- DOMAIN_READY: PWR_ON_ACK has risen and the domain is ready (R40, R300). -/
def doDomainReady (d : Nat) (s : State) : State :=
  if powered s && bitAt s.pwr.req d && !domOn s d then
    domainServes d (perf d 0x02 (s.upPwr fun p =>
      { p with on := p.on ||| (1#30 <<< d), ack := p.ack ||| (1#30 <<< d), late := p.late &&& ~~~(1#30 <<< d) }))
  else s

def execDomainReady (d : Fin 30) (s : State) : Host.Outcome State Fault Refusal := .next (s.run (doDomainReady d.val))

/-- A request that waits at the port needs slice `sl` (R58, "no register request outstanding"). -/
def rtpWants (s : State) (sl : Nat) : Bool :=
  s.gates.rtpHeld.any fun q =>
    match regAt (rtpWord q) with
    | some r => (needsSlices s q r).contains sl
    | none => false

/-- SLICE_IDLE_GATE. -/
def doSliceIdleGate (sl : Nat) (s : State) : State :=
  if frugal s && domOn s (dSlc sl) && sliceQuiet s sl && sliceUnused s sl && !rtpWants s sl &&
      idleSince s (Tbl.get zeroD s.intake.lastApply sl) then
    gateOff (dSlc sl) s
  else s

def execSliceIdleGate (slice : Fin 8) (s : State) : Host.Outcome State Fault Refusal := .next (s.run (doSliceIdleGate slice.val))

/-- LAST of a release (Table 17-7): 10 after a brown-out, else 01. -/
def releaseKind (s : State) : BitVec 2 := if s.pwr.brown then 2 else 1

/-- WARM_RESET_RELEASE: RST_WARM_N rises (R47, R310). While PWR_SUPPLY_OK is low the release waits for it (R303). -/
def doWarmResetRelease (x : Straps) (s : State) : State :=
  if s.pwr.phase = .held then
    if s.pwr.supplyOk then rtpGoes (release_ x (releaseKind s) s) else s.upPwr fun p => { p with rstWarmN := true, straps := strapsOf x }
  else s

def execWarmResetRelease (x : Straps) (s : State) : Host.Outcome State Fault Refusal := .next (s.run (doWarmResetRelease x))

/-- SUPPLY_OK_RISE: cold start goes on (R304); with RST_WARM_N high a brown-out is released (R303); with RST_WARM_N low the straps are
sampled (R47). -/
def doSupplyOkRise (x : Straps) (s : State) : State :=
  match s.pwr.phase with
  | .supplyWait => coldInit x s
  | .held =>
    if s.pwr.rstWarmN then rtpGoes (release_ x (releaseKind s) s)
    else s.upPwr fun p => { p with supplyOk := true, straps := strapsOf x }
  | _ => s

def execSupplyOkRise (x : Straps) (s : State) : Host.Outcome State Fault Refusal := .next (s.run (doSupplyOkRise x))

/-- CAPTURE_ENTRY: the ports acknowledge, and SMT, where powered, trains (Table 17-3, steps 5 and 6). -/
def doCaptureEntry (s : State) : State :=
  if s.pwr.phase = .init then
    let s1 := s.upPwr fun p => { p with phase := .run }
    rtpGoes (serveDips (if domOn s1 dSmt then trainTwin s1 else s1))
  else s

def execCaptureEntry (s : State) : Host.Outcome State Fault Refusal := .next (s.run doCaptureEntry)

end Sys2Proof.Machine
end

