-- ==== Sys2Proof/Machine/SeamLink.lean ====
section
/-! DEFINITION. The commands of the link layer (file 12): flits received and sent, timers, training, retrain, Rinse, lanes, and the Seam-R
sessions. -/

namespace Sys2Proof.Machine

/-- The link layer of a link works: strapped on, powered, outside resets. -/
def linkOn (s : State) (l : Seam) : Bool :=
  match l with
  | .twin => decide (s.pwr.straps.lanes ≠ 0) && domOn s dSmt && accepting s
  | .relay b _ => relayOn s && decide (b ≠ ownBlk s) && decide (b ≠ 0x7FF)

/-! ### Losing and reaching UP (Table 12-5, R224) -/

/-- The user of the link is told that it is down: the twin layer has lost its partner (R199, R224). -/
def toldDown (l : Seam) (s : State) : State :=
  match l with
  | .twin => presume (if hasPartner s then partnerLost s else lossRun s)
  | .relay _ _ => s

/-- A Rinse of a session that the link kept (R224). -/
def rinseLink (l : Seam) (cr cs : BitVec 32) (s : State) : State := noteRinse l (setLk l (rinsed l (lk s l) cr cs) s)

/-- A link without a session to keep starts one: sequences at 0, credits as the buffers sent; what its user has queued stays. -/
def freshSession (l : Seam) (cr cs : BitVec 32) (s : State) : State :=
  let x := lk s l
  setLk l { rinsed l x cr cs with txReq := x.txReq, txRsp := x.txRsp } s

/-- What the link's user does at UP. On Seam-T a block that has committed in SOLO without a partner and a witness counts as the holder
from now on, and PARTNER_ABSENT falls (R195, R206). A session of Seam-R carries its bundles (R232, R243). -/
def toldUp (l : Seam) (kept : Bool) (s : State) : State :=
  match l with
  | .twin =>
    s.upTwin fun w =>
      { w with holder := w.holder || (w.absent && w.witness.isNone && decide (w.state = .solo)), absent := false }
  | .relay b st => if kept then pathGood b st s else sessionUp b st s

/-- TRAIN with TRAIN_ACK = 1 has come: step 4, UP, and what leaves at once (Table 12-5, R222, R223). -/
def completeTraining (l : Seam) (p : BitVec 960) (s : State) : State :=
  let x := lk s l
  let kept := ownResume x && bitAt (payDw p 2) 12
  let cr := (fld (payDw p 4) 0 16).setWidth 32
  let cs := (fld (payDw p 4) 16 16).setWidth 32
  let back := trainPayload s l true
  let s1 :=
    if kept then setLk l { resumed x (fld (payDw p 3) 0 12) with proving := decide (x.st = .retrain) } s
    else if ownResume x then rinseLink l cr cs s
    else freshSession l cr cs s
  let s2 := setLk l { lk s1 l with st := .up, trained := false, resume := false, mismatch := false } s1
  let s3 := queueCtl l back s2
  let s4 := match l with | .twin => queueCtl l (heartbeatPayload s3) s3 | .relay _ _ => s3
  toldUp l kept s4

/-- A TRAIN flit while the link trains: one that breaks the link's rule is logged once (R222). -/
def trainFlit (l : Seam) (p : BitVec 960) (s : State) : State :=
  let x := lk s l
  if !trainOk s l p then
    if x.mismatch then s else linkCE .seamMismatch l (setLk l { x with mismatch := true } s)
  else
    let s1 := setLk l { x with trained := true, resume := bitAt (payDw p 2) 12 } s
    if bitAt (payDw p 2) 13 then completeTraining l p s1 else s1

/-- A TRAIN flit: an UP link whose partner trains again retrains; a closed session opens to it. -/
def onTrain (l : Seam) (p : BitVec 960) (s : State) : State :=
  match (lk s l).st with
  | .up => if bitAt (payDw p 2) 13 || !trainOk s l p then s else trainFlit l p (startRetrain l s)
  | .training | .retrain | .grace => trainFlit l p s
  | .down =>
    match l with
    | .twin => s
    | .relay _ _ => if mayOpen s && trainOk s l p then trainFlit l p (startTraining l s) else s

/-! ### Receiving (R216, R218–R221) -/

/-- A NAK names a flit to replay; for the 8th time a retrain is due instead (R217). One that a retrain is about to send again is on its way. -/
def onNak (l : Seam) (n : BitVec 12) (s : State) : State :=
  let x := lk s l
  match x.replay.find? fun f => f.seq = n with
  | none => s
  | some f =>
    if 7 ≤ f.times then setLk l { x with due := true } s
    else if x.replayQ.contains n || x.resendQ.contains n then s
    else setLk l { x with replayQ := x.replayQ ++ [n] } s

/-- A DARN sets the credits granted; a change is counted (R221). -/
def onDarn (l : Seam) (p : BitVec 960) (s : State) : State :=
  let x := lk s l
  let s1 := setLk l { x with crReq := payDw p 1, crRsp := payDw p 2 } s
  if x.crReq = payDw p 1 ∧ x.crRsp = payDw p 2 then s1 else bump (linkPage l + 0x058) s1

/-- The partner drops lanes; the last lane is never dropped. The side that detects a drop counts and logs it (R228, the worked example). -/
def onLaneDrop (set : Byte) (s : State) : State :=
  let now := wantLanes s
  if now &&& set = 0 ∨ now &&& ~~~set = 0 then s
  else changeLanes (now &&& set) (s.upTwin fun t => { t with peerDrop := t.peerDrop ||| (now &&& ~~~set) })

/-- The partner adds lanes that it had dropped, and has counted and logged it (R228). -/
def onLaneAdd (set : Byte) (s : State) : State :=
  let s1 := s.upTwin fun t => { t with peerDrop := t.peerDrop &&& ~~~set }
  changeLanes (wantLanes s ||| (set &&& s.twin.lnRdy &&& permitted s &&& ~~~s.twin.ownDrop &&& ~~~s1.twin.peerDrop)) s1

/-- A session ends on CLOSE: what its user has queued and what it has received stay. -/
def closed (x : Link) : Link :=
  { linkD 0 with txReq := x.txReq, txRsp := x.txRsp, rxReq := unmark x.rxReq, rxRsp := unmark x.rxRsp }

/-- A link control flit (Table 12-4); any other CTYPE is discarded (R216). The spec does not say what a NAK, HEARTBEAT, DARN, LANE_DROP,
LANE_ADD or CLOSE does to a link that is not UP: its header is taken and its content ignored (DESIGN CHOICE, log entry 142). -/
def onCtl (l : Seam) (p : BitVec 960) (s : State) : State :=
  let up := decide ((lk s l).st = .up)
  match (fld p 0 8).toNat, l with
  | 0x01, _ => if up then onNak l (fld (payDw p 1) 0 12) s else s
  | 0x02, .twin => if up then heartbeatIn (heartbeatOf p) s else s
  | 0x03, _ => if up then onDarn l p s else s
  | 0x04, .twin => if up then onLaneDrop (fld (payDw p 1) 0 8) s else s
  | 0x05, .twin => if up then onLaneAdd (fld (payDw p 1) 0 8) s else s
  | 0x06, _ => onTrain l p s
  | 0x07, .relay _ _ => if up then setLk l (closed (lk s l)) s else s
  | _, _ => s

/-- Place of a sequence number around E, for numbers within half the ring of it. -/
def ordOf (x : Link) (q : BitVec 12) : Nat := (q - x.exp + 2048).toNat

/-- The start of the window: the lowest hole, or E. -/
def windowStart (x : Link) : BitVec 12 := x.holes.foldl (fun m h => if ordOf x h < ordOf x m then h else m) x.exp

/-- A held flit at its place in sequence order. -/
def insertHeld (x : Link) (f : HeldFlit) : List HeldFlit → List HeldFlit
  | [] => [f]
  | g :: r => if ordOf x f.seq < ordOf x g.seq then f :: g :: r else g :: insertHeld x f r

/-- Passes held flits below every hole to the user; the 16th since the last acknowledgement asks for one (R218, R219). -/
def passHeld (l : Seam) : Nat → Link → Link
  | 0, x => x
  | n + 1, x =>
    match x.heldF with
    | [] => x
    | f :: r =>
      if ordOf x f.seq < ordOf x (windowStart x) then
        let y := deliver l f.rsp f.payload { x with heldF := r }
        passHeld l n { y with sinceAck := y.sinceAck + 1, ackDue := y.ackDue || decide (16 ≤ y.sinceAck + 1) }
      else x

/-- Flits that all Seam-R sessions hold (R229). -/
def heldAll (s : State) : Nat := s.link.foldl (fun n p => if p.1 = 0 then n else n + p.2.heldF.length) 0

/-- Room to hold a flit behind a hole. -/
def holdRoom (s : State) (l : Seam) : Bool :=
  match l with
  | .twin => true
  | .relay _ _ => decide (heldAll s < 64)

/-- The hole that a flit fills, if any. -/
def holeOf (x : Link) (f : BitVec 1024) : Option (BitVec 12) := x.holes.find? fun h => flitMatches f (seqPre h)

/-- The j of R218 for which a flit is E + j, within the window. -/
def aheadOf (x : Link) (l : Seam) (f : BitVec 1024) : Option Nat :=
  (List.range (x.bad + 1)).find? fun j =>
    let q := x.exp + BitVec.ofNat 12 j
    decide ((q - windowStart x).toNat < windowOf l) && flitMatches f (seqPre q)

/-- A sequenced flit that passes: held, then passed on where nothing below is missing. -/
def takeFlit (l : Seam) (q : BitVec 12) (f : BitVec 1024) (x : Link) : Link :=
  let y := takeHeader f { x with bad := 0, heldF := insertHeld x { seq := q, rsp := flRsp f, payload := flPayload f } x.heldF }
  passHeld l (y.heldF.length + 1) y

/-- A flit E + j: the numbers before it are holes, each with its NAK. -/
def takeAhead (l : Seam) (j : Nat) (f : BitVec 1024) (s : State) : State :=
  let x := lk s l
  let missing := (List.range j).map fun k => x.exp + BitVec.ofNat 12 k
  let q := x.exp + BitVec.ofNat 12 j
  let y := { x with holes := x.holes ++ missing, exp := q + 1, ctl := x.ctl ++ missing.map nakPayload }
  bumpBy (linkPage l + 0x028) j (setLk l (takeFlit l q f y) s)

/-- The link goes DOWN: counted, logged, its user told, and grace begins (R224). -/
def goDown (l : Seam) (s : State) : State :=
  toldDown l (linkCE .seamDown l (bump (linkPage l + 0x048) (setLk l { lk s l with st := .grace, fails := 0, due := false, proving := false } s)))

/-- A retrain has failed: a new one starts, or after three in a row the link goes DOWN (R223). -/
def retrainFailed (l : Seam) (s : State) : State :=
  let x := lk s l
  if 2 ≤ x.fails then goDown l s else startRetrain l (setLk l { x with fails := x.fails + 1 } s)

/-- A flit that passes no check: the 33rd in a row makes a retrain due (R218), and the first after a retrain makes that one fail (R223). -/
def badFlit (l : Seam) (s : State) : State :=
  let x := lk s l
  let s1 := perf (linkDom l) 0x43
    (bump (linkPage l + 0x038) (setLk l { x with bad := min 33 (x.bad + 1), due := x.due || decide (x.st = .up ∧ 32 ≤ x.bad) } s))
  if x.proving then retrainFailed l s1 else s1

/-- The header of a sequenced flit that passes a check while the link keeps its session in training. -/
def headerOnly (l : Seam) (f : BitVec 1024) (s : State) : State :=
  if ownResume (lk s l) then setLk l (takeHeader f (lk s l)) s else s

/-- A flit received on a link (R218). Sequenced flits are taken while the link is UP, their headers also while it trains again; `ok` is false
where a word of it failed LCHK. -/
def receive (l : Seam) (ok : Bool) (f : BitVec 1024) (s0 : State) : State :=
  let s := retrainIfDue l (perf (linkDom l) 0x41 (perfUnit (linkDom l) 1 s0))
  let x := lk s l
  if !ok then (if x.st = .down then s else badFlit l s)
  else if flitMatches f unseqPre && (flType f = 0 || flType f = 2) then
    let s1 := if x.st = .down then s else setLk l (takeHeader f x) s
    if flType f = 2 then onCtl l (flPayload f) s1 else s1
  else
    match holeOf x f, aheadOf x l f with
    | some h, _ => if x.st = .up then setLk l (takeFlit l h f { x with holes := x.holes.erase h }) s else headerOnly l f s
    | none, some j =>
      if x.st ≠ .up then headerOnly l f s
      else if (j = 0 ∧ x.holes = []) ∨ holdRoom s l then takeAhead l j f s
      else badFlit l s
    | none, none => if x.st = .down then s else badFlit l s

/-! ### Lane words (R43, R226–R228) -/

/-- LCHK of a received word is good. -/
def laneOk (w : BitVec 272) : Bool := decide (fld w 8 8 = laneCheck w)

/-- A fill word (R43). -/
def isFill (w : BitVec 272) : Bool := decide (fld w 0 16 = (0 : BitVec 16))

/-- One received word is counted on its lane; 1,048,576 of them make a window (R228). -/
def countWord (w : LaneWord) (s : State) : State :=
  if isFill w.word then s
  else
    let n := w.lane.toNat
    let total := Tbl.get natD s.twin.laneWords n
    let bads := Tbl.get natD s.twin.laneBad n
    let s1 := if laneOk w.word then s else bump (smtPage + 0x080 + 8 * n) s
    let miss := if laneOk w.word then 0 else 1
    s1.upTwin fun t =>
      { t with laneWords := Tbl.set natD t.laneWords n (if total + 1 = 1048576 then 0 else total + 1),
               laneBad := Tbl.set natD t.laneBad n (if total + 1 = 1048576 then 0 else bads + miss) }

/-- A word is a good training word of its lane (R226). -/
def isTrainWord (w : LaneWord) : Bool :=
  laneOk w.word && fld w.word 0 4 = 2 && fld w.word 16 16 = 0x5E17 && fld w.word 32 3 = w.lane

/-- A training word deskews its lane. While the link trains, the lanes ready on both sides are the active set in both directions, and quarters
follow from the next round (Table 12-5, step 2). -/
def trainWord (w : LaneWord) (s0 : State) : State :=
  let d := fld w.word 35 8
  let s := s0.upTwin fun t => { t with deskewed := t.deskewed ||| laneBit w.lane.toNat }
  if isTraining (lk s .twin).st then
    let out := if (lk s .twin).st = .training then 0 else s.twin.ownDrop ||| s.twin.peerDrop
    let set := s.twin.lnRdy &&& d &&& permitted s &&& ~~~out
    s.upTwin fun t =>
      { t with lanes := set, ownDrop := t.ownDrop &&& out, peerDrop := t.peerDrop &&& out, rxLanes := set, rxPos := 0,
               rxRound := fld w.word 4 4 + 1, rxQ := [], rxFlit := [] }
  else s

/-- The words of a lane that wait for their place. -/
def rxWords (s : State) (n : Nat) : List (BitVec 272) := Tbl.get nilD s.twin.rxQ n

/-- Replaces them. -/
def setRxWords (n : Nat) (l : List (BitVec 272)) (s : State) : State := s.upTwin fun t => { t with rxQ := Tbl.set nilD t.rxQ n l }

/-- A good lane marker with its new set. -/
def markerSet (w : BitVec 272) : Option Byte := if laneOk w && fld w 0 4 = 3 then some (fld w 16 8) else none

/-- The marker that stands first on a lane of the receive set, with its word. -/
def rxMarker (s : State) : Option (Byte × BitVec 272) :=
  (lanesOf s.twin.rxLanes).findSome? fun n =>
    match rxWords s n with
    | w :: _ => (markerSet w).map fun d => (d, w)
    | [] => none

/-- The receiver follows a round of markers to the new set (R228); the marker words of the other lanes are passed over as they come. -/
def followMarker (d : Byte) (m : BitVec 272) (s : State) : State :=
  let s1 := (lanesOf s.twin.rxLanes).foldl
    (fun s n => match rxWords s n with | w :: r => if (markerSet w).isSome then setRxWords n r s else s | [] => s) s
  s1.upTwin fun t => { t with rxLanes := d, rxPos := 0, rxRound := fld m 4 4 + 1, rxFlit := [] }

/-- The next quarter has come, or its place is known to be empty: a flit of four is received (R227). -/
def addQuarter (q : BitVec 256) (ok : Bool) (s : State) : State :=
  let wrap := decide ((lanesOf s.twin.rxLanes).length ≤ s.twin.rxPos + 1)
  let l := s.twin.rxFlit ++ [(q, ok)]
  let s1 := s.upTwin fun t =>
    { t with rxPos := if wrap then 0 else t.rxPos + 1, rxRound := if wrap then t.rxRound + 1 else t.rxRound,
             rxFlit := if l.length = 4 then [] else l }
  let at_ := fun i => (l.getD i (0, false)).1
  if l.length = 4 then receive .twin (l.all Prod.snd) (at_ 3 ++ at_ 2 ++ at_ 1 ++ at_ 0) s1 else s1

/-- Takes the words that wait, in lane order, round after round (R227): a word of a later round shows that its lane's quarter is missing, and
one of an earlier round is passed over. `fuel` bounds the number of words and places. -/
def assemble : Nat → State → State
  | 0, s => s
  | k + 1, s =>
    match (if s.twin.rxPos = 0 then rxMarker s else none), (lanesOf s.twin.rxLanes)[s.twin.rxPos]? with
    | some (d, m), _ => assemble k (followMarker d m s)
    | none, none => s
    | none, some n =>
      match rxWords s n with
      | [] => s
      | w :: r =>
        if !laneOk w then assemble k (addQuarter 0 false (setRxWords n r s))
        else if fld w 0 4 = 1 ∧ fld w 4 4 = s.twin.rxRound then assemble k (addQuarter (fld w 16 256) true (setRxWords n r s))
        else if (fld w 4 4 - s.twin.rxRound).toNat < 8 then assemble k (addQuarter 0 false s)
        else assemble k (setRxWords n r s)

/-- One word of Seam-T: a fill word is skipped; a training word trains; a quarter or a marker waits for its place on a lane of the receive
set, as does a word that fails LCHK; on any other lane such a word ends the lane's quiet time (R226 to R228). -/
def takeWord (s : State) (w : LaneWord) : State :=
  let n := w.lane.toNat
  let s1 := countWord w s
  if isFill w.word then s1
  else if isTrainWord w then trainWord w s1
  else if bitAt s1.twin.rxLanes n then assemble 64 (setRxWords n (rxWords s1 n ++ [w.word]) s1)
  else if laneOk w.word then s1
  else s1.upTwin fun t => { t with failedTrain := t.failedTrain ||| laneBit n }

/-- Four words of Seam-T, in the order of their coming. -/
def receiveLanes (q0 q1 q2 q3 : LaneWord) (s : State) : State := [q0, q1, q2, q3].foldl takeWord s

/-- FLIT_RECEIVED. -/
def doFlitReceived (f : RxFlit) (s : State) : State :=
  match f with
  | .lanes q0 q1 q2 q3 => if linkOn s .twin then settleMbx (receiveLanes q0 q1 q2 q3 s) else s
  | .stream w h =>
    let l := Seam.relay (fld h 32 11) (bitAt h 43)
    if relayOn s then settleMbx (receive l true w s) else s

def execFlitReceived (f : RxFlit) (s : State) : Host.Outcome State Fault Refusal := .next (s.run (doFlitReceived f))

/-! ### Sending -/

/-- The training words of one round on the lanes of a set. -/
def trainRound (set : Byte) (s : State) : State := sendRound ((lanesOf set).map fun n => (n, trainingWord s n)) s

/-- What a link in training sends: on Seam-T a round of training words while the partner has not been heard, then TRAIN (Table 12-5). -/
def sendTraining (l : Seam) (s : State) : State :=
  let x := lk s l
  let train := fun (s : State) => sendFlit l 2 false (trainPayload s l x.trained) unseqPre s
  match l with
  | .twin =>
    let s1 := if x.trained then s else trainRound (s.twin.lnRdy &&& permitted s) s
    if s1.twin.lanes = 0 then s1 else train s1
  | .relay b _ => if (routeOf s b).isSome then train s else s

/-- The new sequenced flit that is next: RSP before REQ, each with a credit, while the replay buffer has room. -/
def sendNew (l : Seam) (s : State) : Option State :=
  let x := lk s l
  if !replayRoom s l then none
  else
    match (if creditsOf x true then nextPayload x.fragRsp x.txRsp else none), (if creditsOf x false then nextPayload x.fragReq x.txReq else none) with
    | some (p, fr, q), _ => some (sendSeq l true p (setLk l { x with fragRsp := fr, txRsp := q } s))
    | none, some (p, fr, q) => some (sendSeq l false p (setLk l { x with fragReq := fr, txReq := q } s))
    | none, none => none

/-- An idle flit, where an acknowledgement or credits are due (R213, R219, R220). -/
def sendIdle (l : Seam) (s : State) : State :=
  let x := lk s l
  if x.ackDue ∨ 0 < x.owedReq ∨ 0 < x.owedRsp then sendFlit l 0 false 0 unseqPre s else s

/-- The next flit of an UP link: control, then what a retrain sends again, then a replay, then a new flit, then an idle flit (R217, R219,
R223). -/
def sendNext (l : Seam) (s : State) : State :=
  let x := lk s l
  let find := fun (l : List (BitVec 12)) => l.findSome? fun q => x.replay.find? fun f => f.seq = q
  match x.ctl, find x.resendQ, find x.replayQ with
  | p :: r, _, _ => sendFlit l 2 false p unseqPre (setLk l { x with ctl := r } s)
  | [], some f, _ => resendFlit l f s
  | [], none, some f => sendReplay l f s
  | [], none, none =>
    match sendNew l s with
    | some t => t
    | none => sendIdle l s

/-- Dropped lanes carry training words (R228). -/
def sendDropped (l : Seam) (s : State) : State :=
  match l with
  | .twin =>
    let set := (s.twin.ownDrop ||| s.twin.peerDrop) &&& s.twin.lnRdy &&& permitted s &&& ~~~s.twin.lanes
    if set = 0 then s else s.emit (.lanes ((lanesOf set).map fun n => (n, trainingWord s n)))
  | .relay _ _ => s

/-- One flit of a link. -/
def transmit (l : Seam) (s0 : State) : State :=
  let s := retrainIfDue l s0
  match (lk s l).st with
  | .up => sendNext l (sendDropped l s)
  | .training | .retrain | .grace => sendTraining l s
  | .down => s

/-- FLIT_TRANSMIT. -/
def doFlitTransmit (l : Seam) (s : State) : State := if linkOn s l then transmit l s else s

def execFlitTransmit (l : Seam) (s : State) : Host.Outcome State Fault Refusal := .next (s.run (doFlitTransmit l))

/-- The link is UP and works, and no retrain is due. -/
def linkUp (s : State) (l : Seam) : Bool := linkOn s l && decide ((lk s l).st = .up) && !(lk s l).due

/-- REPLAY_TIMEOUT: the flit is to be replayed, or its 8th replay becomes a retrain (R217). -/
def doReplayTimeout (l : Seam) (seq : BitVec 12) (s : State) : State :=
  if linkUp s l then
    match (lk s l).replay.find? fun f => f.seq = seq with
    | some f => if 7 ≤ f.times then startRetrain l s else onNak l seq s
    | none => s
  else s

def execReplayTimeout (l : Seam) (seq : BitVec 12) (s : State) : Host.Outcome State Fault Refusal :=
  .next (s.run (doReplayTimeout l seq))

/-- ACK_TIMER: the acknowledgement goes with the next flit, an idle one if there is no other (R219). -/
def doAckTimer (l : Seam) (s : State) : State :=
  if linkUp s l && decide (0 < (lk s l).sinceAck) then transmit l (setLk l { lk s l with ackDue := true } s) else s

def execAckTimer (l : Seam) (s : State) : Host.Outcome State Fault Refusal := .next (s.run (doAckTimer l))

/-- DARN_SEND: the credits granted since training (R221). -/
def doDarnSend (l : Seam) (s : State) : State :=
  if linkUp s l then sendFlit l 2 false (darnPayload (lk s l)) unseqPre s else s

def execDarnSend (l : Seam) (s : State) : Host.Outcome State Fault Refusal := .next (s.run (doDarnSend l))

/-- HEARTBEAT_SEND (R199, Table 12-4). -/
def doHeartbeatSend (s : State) : State :=
  if linkUp s .twin then sendFlit .twin 2 false (heartbeatPayload s) unseqPre s else s

def execHeartbeatSend (s : State) : Host.Outcome State Fault Refusal := .next (s.run doHeartbeatSend)

/-! ### Retrain, down, Rinse (R218, R223, R224) -/

/-- RETRAIN_START: 33 bad flits in a row, or an eighth replay, have made a retrain due. -/
def doRetrainStart (l : Seam) (s : State) : State := if linkOn s l then retrainIfDue l s else s

def execRetrainStart (l : Seam) (s : State) : Host.Outcome State Fault Refusal := .next (s.run (doRetrainStart l))

/-- RETRAIN_FAIL: the retrain has missed its bound. -/
def doRetrainFail (l : Seam) (s : State) : State :=
  if linkOn s l && decide ((lk s l).st = .retrain) then retrainFailed l s else s

def execRetrainFail (l : Seam) (s : State) : Host.Outcome State Fault Refusal := .next (s.run (doRetrainFail l))

/-- GRACE_END_RINSE: everything held is discarded, and the link trains with RESUME = 0. -/
def doGraceEndRinse (l : Seam) (s : State) : State :=
  if linkOn s l && decide ((lk s l).st = .grace) then startTraining l (rinseLink l 0 0 s) else s

def execGraceEndRinse (l : Seam) (s : State) : Host.Outcome State Fault Refusal := .next (s.run (doGraceEndRinse l))

/-! ### Lanes (R43, R228) -/

/-- The lane has had more bad words in its window than THRESH allows. -/
def laneBadNow (s : State) (n : Nat) : Bool :=
  decide (laneThresh s ≠ 0) && decide (laneThresh s < Tbl.get natD s.twin.laneBad n)

/-- A lane that does not deskew in a retrain leaves the active set and counts as dropped (R223), unless it is the last (R228). -/
def deskewDrop (n : Nat) (s : State) : State :=
  if s.twin.lanes &&& ~~~laneBit n = 0 then s
  else
    linkCE .seamLaneDrop .twin (bump (smtPage + 0x060) (heldOut n (s.upTwin fun t =>
      { t with lanes := t.lanes &&& ~~~laneBit n, rxLanes := t.rxLanes &&& ~~~laneBit n, ownDrop := t.ownDrop ||| laneBit n,
               failedTrain := t.failedTrain &&& ~~~laneBit n })))

/-- LANE_DROP: too many bad words; else on an UP link SMT_LN_RDY has fallen, and in a retrain the lane has not deskewed (log entry
35). -/
def doLaneDrop (n : Nat) (s : State) : State :=
  if !linkOn s .twin || !bitAt s.twin.lnRdy n then s
  else
    match (lk s .twin).st with
    | .up =>
      if laneBadNow s n then dropLane n (s.upTwin fun t => { t with laneBad := Tbl.set natD t.laneBad n 0 })
      else dropLane n (s.upTwin fun t => { t with lnRdy := t.lnRdy &&& ~~~laneBit n, failedTrain := t.failedTrain ||| laneBit n })
    | .retrain => if bitAt s.twin.lanes n && !bitAt s.twin.deskewed n then deskewDrop n s else s
    | .training | .grace =>
      s.upTwin fun t => { t with lnRdy := t.lnRdy &&& ~~~laneBit n, lanes := t.lanes &&& ~~~laneBit n }
    | .down => s.upTwin fun t => { t with lnRdy := t.lnRdy &&& ~~~laneBit n }

def execLaneDrop (lane : Fin 8) (s : State) : Host.Outcome State Fault Refusal := .next (s.run (doLaneDrop lane.val))

/-- LANE_ADD may come for a lane that this side dropped: ready, permitted by LANE_MASK (Table 12-8), and not held out (R228). -/
def mayAdd (s : State) (n : Nat) : Bool :=
  linkUp s .twin && bitAt s.twin.ownDrop n && bitAt s.twin.lnRdy n && bitAt (permitted s) n &&
    decide ((Tbl.get zeroD s.twin.outUntil n).toNat ≤ s.glb.now.toNat)

/-- The lane is added: LANE_ADD, its CE, and the new set. -/
def addLane (n : Nat) (s : State) : State :=
  let set := wantLanes s ||| laneBit n
  let s1 := queueCtl .twin (laneAddPayload set)
    (s.upTwin fun t => { t with ownDrop := t.ownDrop &&& ~~~laneBit n, addedAt := Tbl.set zeroD t.addedAt n s.glb.now })
  linkCE .seamLaneAdd .twin (bump (smtPage + 0x068) (changeLanes (set &&& ~~~s.twin.peerDrop) s1))

/-- LANE_ADD: QUIET ms have run. A lane that was not clean in them, by a failed training word or a fall of SMT_LN_RDY, begins its quiet time
again (R228). -/
def doLaneAdd (n : Nat) (s : State) : State :=
  if !mayAdd s n then s
  else if bitAt s.twin.failedTrain n then s.upTwin fun t => { t with failedTrain := t.failedTrain &&& ~~~laneBit n }
  else addLane n s

def execLaneAdd (lane : Fin 8) (s : State) : Host.Outcome State Fault Refusal := .next (s.run (doLaneAdd lane.val))

/-- SMT_LN_RDY_RISE: an enabled lane has locked, and carries training words from now on (R43, Table 12-5). -/
def doSmtLnRdyRise (n : Nat) (s : State) : State :=
  if linkOn s .twin && bitAt s.twin.lnEn n && !bitAt s.twin.lnRdy n then
    let s1 := s.upTwin fun t => { t with lnRdy := t.lnRdy ||| laneBit n }
    s1.emit (.lanes [(n, trainingWord s1 n)])
  else s

def execSmtLnRdyRise (lane : Fin 8) (s : State) : Host.Outcome State Fault Refusal := .next (s.run (doSmtLnRdyRise lane.val))

/-! ### Seam-R sessions (R229) -/

/-- A request of the relay stage is bound for a session. -/
def stageFor (s : State) (blk : BitVec 11) (strap : Bool) : Bool :=
  s.relay.stage.any fun q => match q.dest with | .remote b _ => decide (b = blk) && decide (launchStrap s b = strap) | _ => false

/-- Something is queued for a session. -/
def queuedFor (s : State) (blk : BitVec 11) (strap : Bool) : Bool :=
  stageFor s blk strap || decide (bundlesOf s blk strap ≠ []) ||
    decide ((lk s (.relay blk strap)).txReq ≠ []) || decide ((lk s (.relay blk strap)).txRsp ≠ [])

/-- SESSION_OPEN: with something queued, a route, and fewer than 32 sessions open. -/
def doSessionOpen (blk : BitVec 11) (strap : Bool) (s : State) : State :=
  let l := Seam.relay blk strap
  if linkOn s l && decide ((lk s l).st = .down) && (routeOf s blk).isSome && queuedFor s blk strap && mayOpen s then
    transmit l (startTraining l s)
  else s

def execSessionOpen (blk : BitVec 11) (strap : Bool) (s : State) : Host.Outcome State Fault Refusal :=
  .next (s.run (doSessionOpen blk strap))

/-- Nothing of the session is queued or unacknowledged. -/
def sessionIdle (s : State) (blk : BitVec 11) (strap : Bool) : Bool :=
  let x := lk s (.relay blk strap)
  !queuedFor s blk strap && decide (x.replay = []) && decide (x.ctl = []) && decide (x.fragReq = []) && decide (x.fragRsp = [])

/-- SESSION_CLOSE: CLOSE is sent, and the session is closed. -/
def doSessionClose (blk : BitVec 11) (strap : Bool) (s : State) : State :=
  let l := Seam.relay blk strap
  if linkUp s l && sessionIdle s blk strap then
    let s1 := sendFlit l 2 false closePayload unseqPre s
    setLk l (closed (lk s1 l)) s1
  else s

def execSessionClose (blk : BitVec 11) (strap : Bool) (s : State) : Host.Outcome State Fault Refusal :=
  .next (s.run (doSessionClose blk strap))

end Sys2Proof.Machine
end

