-- ==== Sys2Proof/Machine/Relay.lean ====
section
/-! DEFINITION. The commands of relay between blocks (file 13, R230–R232, R192): launch into bundles, receipt, the inbox, acknowledgements,
paths, and the mailbox commands of Table 9-14. -/

namespace Sys2Proof.Machine

/-! ### Launch (R238, R239, R242) -/

/-- Peer and ring of a request of the relay stage. -/
def remoteOf (q : Req) : Option (BitVec 11 × BitVec 15) :=
  match q.dest with
  | .remote b r => some (b, r)
  | _ => none

/-- A record as it travels (Table 12-9): TWIN and REMOTE are the receiver's to set. -/
def relRecOf (s : State) (q : Req) : RelRec :=
  let x := recOf s 0 q
  { dw0 := x.dw0, dw1 := x.dw1, dw2 := x.dw2, dw3 := lo32 x.time, tsHi := hi32 x.time }

/-- Tenant whose record a request writes. -/
def reqTen (s : State) (q : Req) : BitVec 8 := (recOf s 0 q).ten

/-- What a bundle's records share: peer, ring and tenant, hence handle and sealing. -/
def sameBundle (s : State) (a b : Req) : Bool := decide (remoteOf a = remoteOf b) && decide (reqTen s a = reqTen s b)

/-- The first request of the stage whose session is UP. -/
def launchable (s : State) : Option Req :=
  s.relay.stage.find? fun q =>
    match remoteOf q with
    | some (b, _) => decide ((lk s (.relay b (launchStrap s b))).st = .up)
    | none => false

/-- The first request of the stage whose peer has no route; its path fails at once (R237). -/
def noRoute (s : State) : Option (BitVec 11) :=
  s.relay.stage.findSome? fun q =>
    match remoteOf q with
    | some (b, _) => if (routeOf s b).isNone ∧ !pathFailed s b (strapB s) then some b else none
    | none => none

/-- A request's launch into a bundle: its source takes the transition of launch with the mirror update deferred; a FENCE is done (R106,
R239). -/
def launchedRemote (q : Req) (s : State) : State :=
  match q.kind with
  | .event src => eventLaunched src.toNat false s
  | .fence id => fenceDone id s
  | _ => s

/-- Up to 8 records of one peer, ring and tenant, in order of grant, form a bundle (R230, R238). -/
def launchBundle (q : Req) (b : BitVec 11) (r : BitVec 15) (s : State) : State :=
  let qs := (s.relay.stage.filter (sameBundle s q)).take 8
  let strap := launchStrap s b
  let t := reqTen s q
  let p := takeBseq b strap s
  let recs := qs.map (relRecOf s)
  let x : Bundle :=
    { blk := b, strap, ring := r, bseq := p.1, handle := (s.tenantR t.toNat).handle, isSealed := sealedTen s t, recs,
      srcs := qs.filterMap fun q => match q.kind with | .event src => some src | _ => none, resends := 0 }
  let s1 := p.2.upRelay fun y => { y with stage := y.stage.filter (fun a => !qs.contains a), bundles := y.bundles ++ [x] }
  let s2 := queueBundle x (perf dSmr 0x44 (bumpBy (smrPage + 0x070) qs.length s1))
  qs.foldl (fun s q => launchedRemote q s) s2

/-- BUNDLE_LAUNCH (Table 13-2, steps 4 and 5). -/
def doBundleLaunch (s : State) : State :=
  if !relayOn s || s.log.fatal then s
  else
    let s1 := match noRoute s with | some b => failPath b (strapB s) s | none => s
    match launchable s1 with
    | some q =>
      match remoteOf q with
      | some (b, r) => if s1.relay.bundles.length < 4096 then afterDlv (launchBundle q b r s1) else s1
      | none => s1
    | none => s1

def execBundleLaunch (s : State) : Host.Outcome State Fault Refusal := .next (s.run doBundleLaunch)

/-! ### Receipt (R232, R240) -/

/-- The tenant that holds a handle here (R236). -/
def tenantOfHandle (s : State) (h : DW) : Option (BitVec 8) :=
  if h = 0 then none else (s.tenant.find? fun p => p.2.handle = h).map fun p => BitVec.ofNat 8 p.1

/-- The last 1,024 BSEQs accepted from a peer. -/
def acceptedOf (s : State) (l : Seam) : List (BitVec 32) := Tbl.get nilD s.relay.accepted (linkKey l)

/-- A BSEQ is accepted. -/
def noteAccepted (l : Seam) (q : BitVec 32) (s : State) : State :=
  s.upRelay fun y => { y with accepted := Tbl.set nilD y.accepted (linkKey l) ((acceptedOf s l ++ [q]).drop ((acceptedOf s l).length - 1023)) }

/-- `a` is a later BSEQ than `b`. -/
def bseqAfter (a b : BitVec 32) : Bool := decide (0 < (a - b).toNat) && decide ((a - b).toNat < 2 ^ 31)

/-- The BSEQ that the session should bring next is past `q`. -/
def seeBseq (l : Seam) (q : BitVec 32) (s : State) : State :=
  if bseqAfter (q + 1) (Tbl.get zeroD s.relay.nextIn (linkKey l)) then
    s.upRelay fun y => { y with nextIn := Tbl.set zeroD y.nextIn (linkKey l) (q + 1) }
  else s

/-- A refused bundle is awaited if it is the one that should have come, or is awaited already; at the fifth refusal its sender has taken it to
the other strap (R232, R242, log entry 144). -/
def noteRefused (l : Seam) (q : BitVec 32) (s : State) : State :=
  if s.relay.awaited.any fun a => a.sess = linkKey l && a.bseq = q then
    s.upRelay fun y =>
      { y with awaited := (y.awaited.map fun a => if a.sess = linkKey l ∧ a.bseq = q then { a with times := a.times + 1 } else a).filter fun a => a.times < 5 }
  else if q = Tbl.get zeroD s.relay.nextIn (linkKey l) then
    (seeBseq l q s).upRelay fun y => { y with awaited := y.awaited ++ [{ sess := linkKey l, bseq := q, times := 1, anew := false }] }
  else s

/-- A good bundle is awaited no longer, nor is an earlier one that a session UP anew would have brought before it. -/
def noteCame (l : Seam) (q : BitVec 32) (s : State) : State :=
  (seeBseq l q s).upRelay fun y =>
    { y with awaited := y.awaited.filter fun a => !(a.sess = linkKey l && (a.bseq = q || a.anew && bseqAfter q a.bseq)) }

/-- A bundle waits in the inbox for an earlier one of its session that was refused (R242). -/
def heldBack (s : State) (b : InBundle) : Bool :=
  match b.sess with
  | some (k, q) => s.relay.awaited.any fun a => a.sess = k && bseqAfter q a.bseq
  | none => false

/-- A bundle joins the inbox, ahead of those of its session and ring that follow it (R240, R242). -/
def joinInbox (b : InBundle) : List InBundle → List InBundle
  | [] => [b]
  | c :: r =>
    let follows := match b.sess, c.sess with | some (k, q), some (k', q') => decide (k = k') && bseqAfter q' q | _, _ => false
    if c.ring = b.ring ∧ follows = true then b :: c :: r else c :: joinInbox b r

/-- The oldest bundle of a ring that may leave the inbox. -/
def inboxHead (s : State) (ring : BitVec 15) : Option InBundle :=
  s.relay.inbox.find? fun b => decide (b.ring = ring) && !heldBack s b

/-- An answer on the session's RSP channel. -/
def answerSession (l : Seam) (m : SMsg) (s : State) : State := setLk l { lk s l with txRsp := (lk s l).txRsp ++ [m] } s

/-- BUNDLE_ACK from this block. -/
def ackBundle (l : Seam) (q : BitVec 32) (s : State) : State := answerSession l (.bundleAck (ownBlk s) (strapB s) q) s

/-- A record as the inbox holds it: TS_HI of a type 0x8 bundle is this block's at acceptance (Table 13-3). -/
def acceptRec (s : State) (isSealed : Bool) (r : RelRec) : RelRec := if isSealed then r else { r with tsHi := hi32 s.glb.now }

/-- Records that this block has no place for (R240). -/
def rejectBundle (l : Seam) (b : RxBundle) (s : State) : State :=
  ackBundle l b.bseq (linkCE .relayReject l (bumpBy (smrPage + 0x080) b.recs.length (noteCame l b.bseq (takeRx l false false s))))

/-- A good bundle: a repeat is acknowledged, a stranger rejected, any other placed in the inbox, or kept in its receive buffer while the
inbox is full. -/
def takeBundle (l : Seam) (isSealed : Bool) (b : RxBundle) (s : State) : State :=
  if (acceptedOf s l).contains b.bseq then ackBundle l b.bseq (takeRx l false false s)
  else
    match tenantOfHandle s b.handle with
    | none => rejectBundle l b s
    | some t =>
      if ringOwner s b.ring.toNat ≠ some t then rejectBundle l b s
      else if 1024 ≤ s.relay.inbox.length then s
      else
        let x : InBundle :=
          { key := none, sess := some (linkKey l, b.bseq), ring := b.ring, ten := t, recs := b.recs.map (acceptRec s isSealed), epoch := s.glb.epoch,
            badSince := if healthy s b.ring.toNat then none else some s.glb.now }
        let s1 := (takeRx l false false s).upRelay fun y => { y with inbox := joinInbox x y.inbox }
        ackBundle l b.bseq (noteCame l b.bseq (noteAccepted l b.bseq (bumpBy (smrPage + 0x078) b.recs.length s1)))

/-- A bundle that fails the code or the CRC asks for a resend by the BSEQ that its header shows; it is counted and logged (R232). -/
def refuseBundle (l : Seam) (b : BitVec 2880) (s : State) : State :=
  answerSession l (.bundleResend (ownBlk s) (strapB s) (fld b 64 32))
    (linkCE .bundleResend l (bump (smrPage + 0x068) (noteRefused l (fld b 64 32) (takeRx l false false s))))

/-- BUNDLE_RECEIVED. -/
def doBundleReceived (blk : BitVec 11) (strap : Bool) (s : State) : State :=
  let l := Seam.relay blk strap
  match headRx s l false false with
  | some (.bundle isSealed b) =>
    if !relayOn s || !domOn s dDlv then s
    else
      match rxBundle isSealed b with
      | some x =>
        let t := takeBundle l isSealed x s
        if x.corrected && decide (headRx t l false false ≠ headRx s l false false ∨ (rxOf (lk t l) false).length < (rxOf (lk s l) false).length) then
          bump (smrPage + 0x060) t
        else t
      | none => refuseBundle l b s
  | _ => s

def execBundleReceived (blk : BitVec 11) (strap : Bool) (s : State) : Host.Outcome State Fault Refusal :=
  .next (s.run (doBundleReceived blk strap))

/-! ### The inbox (R240, R241) -/

/-- The request of a record. -/
def inboxReq (s : State) (b : InBundle) (r : RelRec) : Req :=
  { kind := .relayed r b.ten, lvl := fld r.dw0 18 4, dest := .half b.ring, epoch := b.epoch, age := s.stepNo, sel := 64 * s.stepNo, res := false }

/-- A record goes on the way to the level queue of its LVL. -/
def pushRelayed (q : Req) (s : State) : State := s.setSelQ q.lvl.toNat (s.selQ q.lvl.toNat ++ [q])

/-- A relayed request for a half. -/
def relayedFor (ring : BitVec 15) (q : Req) : Bool :=
  match q.kind with
  | .relayed _ _ => decide (q.dest = .half ring)
  | _ => false

/-- A grant of relayed records for the half that a restart has made a dead slot. -/
def staleGrant (s : State) (ring : BitVec 15) (g : Grant) : Bool :=
  match g with
  | .recs r qs n _ _ _ => decide (r = ring) && decide (n ≠ (s.half r.toNat).restarts) && qs.any (relayedFor ring)
  | .own _ => false

/-- The next record of a half may leave the inbox: the one before it has been granted, so that arbitration by level cannot reorder them
(R240, R242). -/
def mayRelease (s : State) (ring : BitVec 15) (r : RelRec) : Bool :=
  ranking s && halfOpen s ring.toNat && !levelFull s (fld r.dw0 18 4).toNat && !(entering s ++ ungranted s).any (relayedFor ring) &&
    !(List.range 4).any fun c => (s.grants c).any (staleGrant s ring)

/-- The inbox without the first record of bundle `b`. -/
def dropRec (b : InBundle) : List InBundle → List InBundle
  | [] => []
  | c :: r => if c = b then (if b.recs.length ≤ 1 then r else { b with recs := b.recs.drop 1 } :: r) else c :: dropRec b r

/-- INBOX_RELEASE: the oldest record of a half leaves the inbox. -/
def doInboxRelease (ring : BitVec 15) (s : State) : State :=
  match inboxHead s ring with
  | some b =>
    match b.recs with
    | r :: _ =>
      if mayRelease s ring r then pushRelayed (inboxReq s b r) (s.upRelay fun y => { y with inbox := dropRec b y.inbox }) else s
    | [] => s.upRelay fun y => { y with inbox := dropRec b y.inbox }
  | none => s

def execInboxRelease (ring : BitVec 15) (s : State) : Host.Outcome State Fault Refusal := .next (s.run (doInboxRelease ring))

/-- The half has not been healthy for 1 s. -/
def badForSecond (s : State) (b : InBundle) : Bool :=
  match b.badSince with
  | some t => decide (t.toNat + 1000000000 ≤ s.glb.now.toNat)
  | none => false

/-- RELAY_DISCARD. -/
def doRelayDiscard (ring : BitVec 15) (s : State) : State :=
  match s.relay.inbox.find? fun b => b.ring = ring with
  | some b =>
    if badForSecond s b && !healthy s ring.toNat then
      logCEKind .relayDiscard (uRing ring) 0 (bumpBy (smrPage + 0x080) b.recs.length
        (s.upRelay fun y => { y with inbox := y.inbox.eraseP fun x => x.ring = ring }))
    else s
  | none => s

def execRelayDiscard (ring : BitVec 15) (s : State) : Host.Outcome State Fault Refusal := .next (s.run (doRelayDiscard ring))

/-! ### Answers (R232, R239) -/

/-- The unacknowledged bundle that an answer names. -/
def bundleNamed (s : State) (blk : BitVec 11) (strap : Bool) (q : BitVec 32) : Option Bundle :=
  (bundlesOf s blk strap).find? fun b => b.bseq = q

/-- The update that R239 deferred: the source's mirror state as it now stands. -/
def deferredMirror (s : State) (src : BitVec 18) : State :=
  if srcAcked s src then queueMirror src.toNat (mirrorOf (s.dyn src.toNat).st) s else s

/-- BUNDLE_ACK_RECEIVED. -/
def doBundleAckReceived (blk : BitVec 11) (strap : Bool) (s : State) : State :=
  let l := Seam.relay blk strap
  match headRx s l true false with
  | some (.bundleAck _ _ q) =>
    if !relayOn s then s
    else
      let s1 := takeRx l true false s
      match bundleNamed s1 blk strap q with
      | some b =>
        let s2 := s1.upRelay fun y => { y with bundles := y.bundles.filter fun x => x ≠ b }
        settleMbx (b.srcs.foldl deferredMirror s2)
      | none => s1
  | _ => s

def execBundleAckReceived (blk : BitVec 11) (strap : Bool) (s : State) : Host.Outcome State Fault Refusal :=
  .next (s.run (doBundleAckReceived blk strap))

/-- BUNDLE_RESEND_RECEIVED. -/
def doBundleResendReceived (blk : BitVec 11) (strap : Bool) (s : State) : State :=
  let l := Seam.relay blk strap
  match headRx s l true false with
  | some (.bundleResend _ _ q) =>
    if !relayOn s then s
    else
      let s1 := takeRx l true false s
      match bundleNamed s1 blk strap q with
      | some b => settleMbx (resendBundle b s1)
      | none => s1
  | _ => s

def execBundleResendReceived (blk : BitVec 11) (strap : Bool) (s : State) : Host.Outcome State Fault Refusal :=
  .next (s.run (doBundleResendReceived blk strap))

/-! ### Paths (R243) -/

/-- RELAY_PATH_FAIL: the session has stayed DOWN for 10 ms, 8 ms of them after its Rinse; it trains again all the while. -/
def doRelayPathFail (blk : BitVec 11) (strap : Bool) (s : State) : State :=
  let l := Seam.relay blk strap
  if linkOn s l && decide ((lk s l).st = .training) then settleMbx (failPath blk strap s) else s

def execRelayPathFail (blk : BitVec 11) (strap : Bool) (s : State) : Host.Outcome State Fault Refusal :=
  .next (s.run (doRelayPathFail blk strap))

/-- RELAY_PATH_RETRY: a failed session tries to train again. One whose path a fifth resend failed while it stayed UP is UP, so new launches
go to it again (log entry 143). -/
def doRelayPathRetry (blk : BitVec 11) (strap : Bool) (s : State) : State :=
  let l := Seam.relay blk strap
  if linkOn s l && pathFailed s blk strap && (routeOf s blk).isSome then
    match (lk s l).st with
    | .down => if mayOpen s then transmit l (startTraining l s) else s
    | .training => transmit l (startTraining l s)
    | .up => pathGood blk strap s
    | .retrain | .grace => s
  else s

def execRelayPathRetry (blk : BitVec 11) (strap : Bool) (s : State) : Host.Outcome State Fault Refusal :=
  .next (s.run (doRelayPathRetry blk strap))

/-! ### Mailbox commands (Table 9-14) -/

/-- A command of a block without Seam-R answers NOT_SUPPORTED (R234). -/
def relayCmd (m : Mbx) (op n : Nat) (f : Cmd → State → State) (s : State) : State :=
  if ownBlk s = 0x7FF then runCmd m op 0 (fun _ s => answer m stNotSupported [] s) s
  else runCmd m op n f s

/-- The block number that DW0 names is one. -/
def blkArg (c : Cmd) : Option (BitVec 11) :=
  if (argDw c 0).toNat < 2048 then some (fld (argDw c 0) 0 11) else none

/-- RELAY_ROUTE: both twins of the number; a path that failed for want of a route may be tried again (R237). -/
def doRelayRoute (m : Mbx) (s : State) : State :=
  relayCmd m 0x0700 2 (fun c s =>
    match blkArg c with
    | none => answer m stBadArg [] s
    | some b =>
      if b = ownBlk s ∨ b = 0x7FF then answer m stBadArg [] s
      else
        let r : BitVec 16 × BitVec 3 := (fld (argDw c 1) 0 16, fld (argDw c 1) 16 3)
        let fresh := (routeOf s b).isNone
        answer m stOk []
          (s.upRelay fun y =>
            { y with route := Tbl.set noneD y.route b.toNat (some r),
                     failed := if fresh then y.failed.filter fun p => p.1 ≠ b else y.failed })) s

def execRelayRoute (m : Mbx) (s : State) : Host.Outcome State Fault Refusal := .next (s.run (doRelayRoute m))

/-- RELAY_FENCE answers once every bundle sent toward the block before has been acknowledged (R192, R242). -/
def doRelayFence (m : Mbx) (s : State) : State :=
  relayCmd m 0x0701 1 (fun c s =>
    match blkArg c with
    | none => answer m stBadArg [] s
    | some b =>
      settleMbx (waitOn m (.relayFence b ((s.relay.bundles.filter fun x => x.blk = b).map fun x => (x.bseq, x.strap))) s)) s

def execRelayFence (m : Mbx) (s : State) : Host.Outcome State Fault Refusal := .next (s.run (doRelayFence m))

/-- Path state toward a block (Table 13-4). -/
def pathState (s : State) (b : BitVec 11) : DW :=
  let own := (lk s (.relay b (strapB s))).st
  let other := (lk s (.relay b (!strapB s))).st
  if (routeOf s b).isNone then 5
  else if own = .up then 1
  else if pathFailed s b (strapB s) then (if other = .up then 3 else 4)
  else if own = .down then 0
  else 2

/-- RELAY_STATUS. -/
def doRelayStatus (m : Mbx) (s : State) : State :=
  relayCmd m 0x0702 1 (fun c s =>
    match blkArg c with
    | none => answer m stBadArg [] s
    | some b => answer m stOk [pathState s b, Tbl.get zeroD s.relay.resent b.toNat] s) s

def execRelayStatus (m : Mbx) (s : State) : Host.Outcome State Fault Refusal := .next (s.run (doRelayStatus m))

end Sys2Proof.Machine
end

