-- ==== Sys2Proof/Machine/RtpCmd.lean ====
section
/-! DEFINITION. The commands of the register target port: each row's register through the one gate, and the two general rows (file 18). -/

namespace Sys2Proof.Machine

/-- Offsets of ring control and Tack registers (Tables 6-6, 7-5, 16-10). -/
def ringOff (r : BitVec 15) (o : Nat) : Nat := 0x200000 + 64 * r.toNat + o
def tackOff (n o : Nat) : Nat := 0x400000 + 64 * n + o

/-- Page of a mailbox (Table 9-1). -/
def mbxPage (m : Mbx) : Nat :=
  match m with
  | .ctl n => 0x80000 + 0x1000 * n.val
  | .ten t => tenPage t.toNat

/-- MBX_GO: an 8-byte write of MBX_CMD with GO = 1 (R165). -/
def doMbxGo (m : Mbx) (data : BitVec 64) (rq : Rq) (s : State) : State :=
  doRtp (rtpAt (mbxPage m) true .w8 (data ||| at64 (b1 true) 63) rq) s
def execMbxGo (m : Mbx) (data : BitVec 64) (rq : Rq) (s : State) : Host.Outcome State Fault Refusal :=
  .next (s.run (doMbxGo m data rq))

def doLnConsWrite (r : BitVec 15) (a : Acc) (data : BitVec 64) (rq : Rq) (s : State) : State :=
  doRtp (rtpAt (ringOff r 0x00) true a data rq) s
def execLnConsWrite (ring : BitVec 15) (a : Acc) (data : BitVec 64) (rq : Rq) (s : State) : Host.Outcome State Fault Refusal :=
  .next (s.run (doLnConsWrite ring a data rq))

def doLnRunlvlWrite (r : BitVec 15) (a : Acc) (data : BitVec 64) (rq : Rq) (s : State) : State :=
  doRtp (rtpAt (ringOff r 0x08) true a data rq) s
def execLnRunlvlWrite (ring : BitVec 15) (a : Acc) (data : BitVec 64) (rq : Rq) (s : State) : Host.Outcome State Fault Refusal :=
  .next (s.run (doLnRunlvlWrite ring a data rq))

def doLnEoiWrite (r : BitVec 15) (a : Acc) (data : BitVec 64) (rq : Rq) (s : State) : State :=
  doRtp (rtpAt (ringOff r 0x10) true a data rq) s
def execLnEoiWrite (ring : BitVec 15) (a : Acc) (data : BitVec 64) (rq : Rq) (s : State) : Host.Outcome State Fault Refusal :=
  .next (s.run (doLnEoiWrite ring a data rq))

def doTkAcqRead (n : Nat) (a : Acc) (rq : Rq) (s : State) : State := doRtp (rtpAt (tackOff n 0x00) false a 0 rq) s
def execTkAcqRead (n : Fin 1024) (a : Acc) (rq : Rq) (s : State) : Host.Outcome State Fault Refusal :=
  .next (s.run (doTkAcqRead n.val a rq))

/-- TK_REL: bit 0 of the Tack's +0x08. -/
def doTkRel (n : Nat) (rq : Rq) (s : State) : State := doRtp (rtpAt (tackOff n 0x08) true .w8 1 rq) s
def execTkRel (n : Fin 1024) (rq : Rq) (s : State) : Host.Outcome State Fault Refusal := .next (s.run (doTkRel n.val rq))

/-- TK_BREAK: bit 1 of the Tack's +0x08. -/
def doTkBreak (n : Nat) (rq : Rq) (s : State) : State := doRtp (rtpAt (tackOff n 0x08) true .w8 2 rq) s
def execTkBreak (n : Fin 1024) (rq : Rq) (s : State) : Host.Outcome State Fault Refusal := .next (s.run (doTkBreak n.val rq))

def doTkLeaseWrite (n : Nat) (a : Acc) (data : BitVec 64) (rq : Rq) (s : State) : State :=
  doRtp (rtpAt (tackOff n 0x10) true a data rq) s
def execTkLeaseWrite (n : Fin 1024) (a : Acc) (data : BitVec 64) (rq : Rq) (s : State) : Host.Outcome State Fault Refusal :=
  .next (s.run (doTkLeaseWrite n.val a data rq))

/-- SLC_MASK_OP_GO: SRC, VALUE and GO in one write (Table 6-5). -/
def doSlcMaskOpGo (src : BitVec 18) (value : Bool) (rq : Rq) (s : State) : State :=
  doRtp (rtpAt 0x28000 true .w8 (at64 src 0 ||| at64 (b1 value) 18 ||| at64 (b1 true) 63) rq) s
def execSlcMaskOpGo (src : BitVec 18) (value : Bool) (rq : Rq) (s : State) : Host.Outcome State Fault Refusal :=
  .next (s.run (doSlcMaskOpGo src value rq))

/-- GT_UPD_GO (Table 5-13). -/
def doGtUpdGo (rq : Rq) (s : State) : State := doRtp (rtpAt 0x40020 true .w8 1 rq) s
def execGtUpdGo (rq : Rq) (s : State) : Host.Outcome State Fault Refusal := .next (s.run (doGtUpdGo rq))

/-- Staged regions, in ascending number. -/
def stagedKeys (s : State) : List Nat := s.gates.staged.map Prod.fst

/-- Installs one staged region; one whose tenant has been sealed since it was staged stays out (R103). -/
def installStaged (k : Nat) (s : State) : State :=
  match s.stagedRegion k with
  | some r =>
    if sealedTen s (regTen (s.region k)) || sealedTen s (regTen r) then s.setStagedRegion k none
    else (installRegion k r s).setStagedRegion k none
  | none => s

/-- DIPs that an update of the DIP gate waits for (R301). -/
def sleepingDips (s : State) : List Nat :=
  if (stagedKeys s).any ofDipGate then (List.range 16).filter fun n => !domOn s (dDip n) else []

/-- GATE_UPDATE: Table 5-10 for every staged expert change, once every DIP that needs it is awake. -/
def doGateUpdate (s : State) : State :=
  if !s.gates.go || !accepting s then s
  else
    match sleepingDips s with
    | [] => afterDlv (releaseColour (((stagedKeys s).foldl (fun s k => installStaged k s) s).upGates fun g => { g with go := false }))
    | l => l.foldl (fun s n => wake (dDip n) s) s
def execGateUpdate (s : State) : Host.Outcome State Fault Refusal := .next (s.run doGateUpdate)

/-- DLV_RSTG_GO (Table 7-3). -/
def doDlvRstgGo (rq : Rq) (s : State) : State := doRtp (rtpAt 0x30038 true .w8 1 rq) s
def execDlvRstgGo (rq : Rq) (s : State) : Host.Outcome State Fault Refusal := .next (s.run (doDlvRstgGo rq))

/-- SLC_SRC_GO (Table 18-10). -/
def doSlcSrcGo (rq : Rq) (s : State) : State := doRtp (rtpAt 0x28020 true .w8 1 rq) s
def execSlcSrcGo (rq : Rq) (s : State) : Host.Outcome State Fault Refusal := .next (s.run (doSlcSrcGo rq))

def doSlcSrcSelWrite (a : Acc) (data : BitVec 64) (rq : Rq) (s : State) : State := doRtp (rtpAt 0x28010 true a data rq) s
def execSlcSrcSelWrite (a : Acc) (data : BitVec 64) (rq : Rq) (s : State) : Host.Outcome State Fault Refusal :=
  .next (s.run (doSlcSrcSelWrite a data rq))

def doPrfSelWrite (a : Acc) (data : BitVec 64) (rq : Rq) (s : State) : State := doRtp (rtpAt 0x40 true a data rq) s
def execPrfSelWrite (a : Acc) (data : BitVec 64) (rq : Rq) (s : State) : Host.Outcome State Fault Refusal :=
  .next (s.run (doPrfSelWrite a data rq))

/-- ERR_CORE_RESTART (Table 16-9). -/
def doErrCoreRestart (rq : Rq) (s : State) : State := doRtp (rtpAt 0x2028 true .w8 1 rq) s
def execErrCoreRestart (rq : Rq) (s : State) : Host.Outcome State Fault Refusal := .next (s.run (doErrCoreRestart rq))

def doErrRingBaseWrite (a : Acc) (data : BitVec 64) (rq : Rq) (s : State) : State := doRtp (rtpAt 0x2000 true a data rq) s
def execErrRingBaseWrite (a : Acc) (data : BitVec 64) (rq : Rq) (s : State) : Host.Outcome State Fault Refusal :=
  .next (s.run (doErrRingBaseWrite a data rq))

/-- Offset of a consumer index. -/
def consOff (r : ConsReg) : Nat :=
  match r with
  | .errRing => 0x2008
  | .ledger t => tenPage t.toNat + 0x800

def doConsIndexWrite (r : ConsReg) (a : Acc) (data : BitVec 64) (rq : Rq) (s : State) : State := doRtp (rtpAt (consOff r) true a data rq) s
def execConsIndexWrite (r : ConsReg) (a : Acc) (data : BitVec 64) (rq : Rq) (s : State) : Host.Outcome State Fault Refusal :=
  .next (s.run (doConsIndexWrite r a data rq))

/-- Offset of an arbiter register. -/
def arbOff (r : ArbReg) : Nat :=
  match r with
  | .lvlMap => 0x30000
  | .arbCfg => 0x30008

def doArbiterConfigWrite (r : ArbReg) (a : Acc) (data : BitVec 64) (rq : Rq) (s : State) : State := doRtp (rtpAt (arbOff r) true a data rq) s
def execArbiterConfigWrite (r : ArbReg) (a : Acc) (data : BitVec 64) (rq : Rq) (s : State) : Host.Outcome State Fault Refusal :=
  .next (s.run (doArbiterConfigWrite r a data rq))

def doSmtLaneCfgWrite (a : Acc) (data : BitVec 64) (rq : Rq) (s : State) : State := doRtp (rtpAt 0x50108 true a data rq) s
def execSmtLaneCfgWrite (a : Acc) (data : BitVec 64) (rq : Rq) (s : State) : Host.Outcome State Fault Refusal :=
  .next (s.run (doSmtLaneCfgWrite a data rq))

/-- Offset of a flag's register, and the write that clears the flag with a tag (R317). A CTR_VALk is written in its high half, so that
COUNT's low half stays. -/
def flagWrite (f : FlagReg) (tag : BitVec 4) (s : State) : Nat × Acc × Reg64 :=
  match f with
  | .timeStall => (0x70, .lo, at64 (b1 true) 0 ||| at64 tag 4)
  | .paceShort => (0x30048, .lo, at64 (b1 true) 0 ||| at64 tag 4)
  | .twinTakeover => (0x58, .lo, at64 (b1 true) 5 ||| at64 tag 8)
  | .ctrWrap d k =>
    (0x70040 + 0x100 * d.val + 8 * k.val, .hi,
      at64 (fld (s.pctr (8 * d.val + k.val)).count 32 16) 0 ||| at64 (b1 true) 16 ||| at64 tag 20)

/-- STATUS_FLAG_CLEAR. -/
def doStatusFlagClear (f : FlagReg) (tag : BitVec 4) (rq : Rq) (s : State) : State :=
  let p := flagWrite f tag s
  doRtp (rtpAt p.1 true p.2.1 p.2.2 rq) s
def execStatusFlagClear (f : FlagReg) (tag : BitVec 4) (rq : Rq) (s : State) : Host.Outcome State Fault Refusal :=
  .next (s.run (doStatusFlagClear f tag rq))

def doCounterWrite (o : BitVec 26) (a : Acc) (data : BitVec 64) (rq : Rq) (s : State) : State := doRtp (rtpAt o.toNat true a data rq) s
def execCounterWrite (offset : BitVec 26) (a : Acc) (data : BitVec 64) (rq : Rq) (s : State) : Host.Outcome State Fault Refusal :=
  .next (s.run (doCounterWrite offset a data rq))

/-- REGISTER_WRITE: a write of the port, RTP_Q[26] = 1 (Table 2-7). -/
def doRegisterWrite (q : BitVec 128) (qp : BitVec 8) (s : State) : State := if bitAt q 26 then doRtp (rtpOfQ q qp) s else s
def execRegisterWrite (q : BitVec 128) (qp : BitVec 8) (s : State) : Host.Outcome State Fault Refusal :=
  .next (s.run (doRegisterWrite q qp))

/-- RTP_READ: a read of the port, RTP_Q[26] = 0. -/
def doRtpRead (q : BitVec 128) (qp : BitVec 8) (s : State) : State := if bitAt q 26 then s else doRtp (rtpOfQ q qp) s
def execRtpRead (q : BitVec 128) (qp : BitVec 8) (s : State) : Host.Outcome State Fault Refusal := .next (s.run (doRtpRead q qp))

end Sys2Proof.Machine
end

