-- ==== Sys2Proof/Machine/Twin.lean ====
section
/-! DEFINITION. The commands of twin pairing and failover (file 11, R179–R181, R31): training, mirroring, commits of the pair, loss and
takeover, the lease, and Rewash. -/

namespace Sys2Proof.Machine

/-- Seam-T is strapped on and its messages are taken. -/
def twinOn (s : State) : Bool := linkOn s .twin

/-- ALONE or SOLO: MIRROR, DIRTY, SNAPSHOT, PREPARE and DECIDE messages are discarded (R225). -/
def aloneSolo (s : State) : Bool := decide (s.twin.state = .alone) || decide (s.twin.state = .solo)

/-! ### Training (R195) -/

/-- TRAINING_TIMEOUT: no partner within 100 ms, so SOLO with PARTNER_ABSENT. A pair strapped the same way never leaves TRAINING (R193). -/
def doTrainingTimeout (s : State) : State :=
  if twinOn s && decide (s.twin.state = .training) && !twinUp s && !(lk s .twin).mismatch then
    setLk .twin (linkD 0) (s.upTwin fun w => { w with state := .solo, absent := true })
  else s

def execTrainingTimeout (s : State) : Host.Outcome State Fault Refusal := .next (s.run doTrainingTimeout)

/-- TRAINING_RETRY: every second while PARTNER_ABSENT is 1, or ALONE or SOLO after a loss; a deadline of Twifomon's (Table 14-10). -/
def doTrainingRetry (s : State) : State :=
  if twinOn s && fwReady s && (s.twin.absent || aloneSolo s) then
    match (lk s .twin).st with
    | .down | .training => transmit .twin (trainTwin s)
    | .up | .retrain | .grace => s
  else s

def execTrainingRetry (s : State) : Host.Outcome State Fault Refusal := .next (s.run doTrainingRetry)

/-! ### The mirror view (R196, R198, R225) -/

/-- MIRROR_RECEIVED. -/
def doMirrorReceived (s : State) : State :=
  match headRx s .twin false false with
  | some (.mirror src st) =>
    let s1 := takeRx .twin false false s
    if !twinOn s then s else if aloneSolo s then s1 else s1.setView src.toNat st
  | _ => s

def execMirrorReceived (s : State) : Host.Outcome State Fault Refusal := .next (s.run doMirrorReceived)

/-- DIRTY_RECEIVED. -/
def doDirtyReceived (s : State) : State :=
  match headRx s .twin false false with
  | some (.dirty g) =>
    let s1 := takeRx .twin false false s
    if !twinOn s then s
    else if aloneSolo s then s1
    else s1.upTwin fun w => { w with rxDirty := addRange g.toNat w.rxDirty }
  | _ => s

def execDirtyReceived (s : State) : Host.Outcome State Fault Refusal := .next (s.run doDirtyReceived)

/-- The 64 mirror states of a range replaced; it is no longer dirty. -/
def takeSnapshot (g : Nat) (v : BitVec 128) (s : State) : State :=
  ((List.range 64).foldl (fun s i => s.setView (64 * g + i) (fld v (2 * i) 2)) s).upTwin fun w => { w with rxDirty := w.rxDirty.erase g }

/-- Once every snapshot of the partner has come, Twifomon says so with REWASH_DONE (Table 11-6, steps 4 and 6). -/
def sayDone (s : State) : State :=
  match s.twin.rewash with
  | some r =>
    if s.twin.state = .rewash ∧ s.twin.rxDirty = [] ∧ r.keeper.isSome ∧ !r.sent ∧ fwReady s then
      finishRewash (sendRsp (.fw 0x12 [4096]) (s.upTwin fun w => { w with rewash := some { r with sent := true } }))
    else s
  | none => s

/-- SNAPSHOT_RECEIVED. -/
def doSnapshotReceived (s : State) : State :=
  match headRx s .twin false false with
  | some (.snapshot g v) =>
    let s1 := takeRx .twin false false s
    if !twinOn s then s else if aloneSolo s then s1 else settleMbx (sayDone (takeSnapshot g.toNat v s1))
  | _ => s

def execSnapshotReceived (s : State) : Host.Outcome State Fault Refusal := .next (s.run doSnapshotReceived)

/-- A forwarded doorbell as this block takes it: stamped here, neither bound nor checked against PORT (R203). -/
def forwardedMsg (s : State) (m : BitVec 128) : Msg := { stampMsg s m with noPort := true }

/-- FORWARD_RECEIVED: applied in every pair state (R225); a gated slice is woken first; a FATAL block applies nothing (R293). -/
def doForwardReceived (s : State) : State :=
  match headRx s .twin false false with
  | some (.forward b) =>
    let m := forwardedMsg s b
    let sl := sliceOf m.src
    if !twinOn s || s.log.fatal then s
    else if m.kind = kFence ∧ 64 ≤ s.intake.fences.length then s
    else if !domOn s (dSlc sl) then wake (dSlc sl) s
    else
      let s1 := bump (smtPage + 0x020) (takeRx .twin false false s)
      let s2 := if m.kind = kFence then fenceIntake m s1 else s1
      settleMbx (serveDips (fencesGo (stampApply sl (applyMsg m s2))))
  | _ => s

def execForwardReceived (s : State) : Host.Outcome State Fault Refusal := .next (s.run doForwardReceived)

/-! ### Sending the mirror (R196–R198) -/

/-- DEGRADED ends when the queue is short again and no range is dirty. -/
def backToPaired (s : State) : State :=
  if s.twin.state = .degraded ∧ s.twin.txDirty = [] ∧ mirrorCount s.twin.mirrorQ < 512 then
    s.upTwin fun w => { w with state := .paired, snapPhase := false }
  else s

/-- MIRROR_SEND: DIRTY messages leave ahead of the queue. -/
def doMirrorSend (s : State) : State :=
  if !twinOn s || !twinUp s || !mirroring s then s
  else
    match s.twin.notice, s.twin.mirrorQ with
    | g :: r, _ => backToPaired (sendReq (.dirty (BitVec.ofNat 12 g)) (s.upTwin fun w => { w with notice := r }))
    | [], m :: r =>
      let s1 := sendReq m (s.upTwin fun w => { w with mirrorQ := r })
      backToPaired
        (match m with
         | .mirror _ _ => perf dSmt 0x44 (bump (smtPage + 0x000) s1)
         | _ => bump (smtPage + 0x010) s1)
    | [], [] => backToPaired s

def execMirrorSend (s : State) : Host.Outcome State Fault Refusal := .next (s.run doMirrorSend)

/-- The mirror states of a range as they stand (R198, R239). -/
def rangeStates (s : State) (g : Nat) : BitVec 128 :=
  (List.range 64).foldl (fun acc i => acc ||| (((mirrorNow s (64 * g + i)).setWidth 128) <<< (2 * i))) 0

/-- Snapshots may be sent: in step 4 of a Rewash, or DEGRADED with a short queue and every DIRTY message gone. -/
def snapshotsGo (s : State) : Bool :=
  match s.twin.state with
  | .rewash => s.twin.snapPhase && decide (s.twin.notice = [])
  | .degraded => decide (mirrorCount s.twin.mirrorQ < 512) && decide (s.twin.notice = [])
  | _ => false

/-- SNAPSHOT_SEND: the lowest dirty range, taken as its message enters the queue. -/
def doSnapshotSend (s : State) : State :=
  if !twinOn s || !twinUp s || !snapshotsGo s then s
  else
    match s.twin.txDirty with
    | [] => backToPaired s
    | g :: r =>
      backToPaired (s.upTwin fun w =>
        { w with txDirty := r, snapPhase := true, mirrorQ := w.mirrorQ ++ [.snapshot (BitVec.ofNat 12 g) (rangeStates s g)] })

def execSnapshotSend (s : State) : Host.Outcome State Fault Refusal := .next (s.run doSnapshotSend)

/-! ### Commits of the pair (R179–R181, Table 10-2) -/

/-- The head message of Twifomon on a VC, where it is of kind `k` and Twifomon runs. -/
def fwHead (s : State) (rsp : Bool) (k : Byte) : Option (List DW) :=
  if twinOn s && fwReady s then
    match headRx s .twin rsp true with
    | some (.fw kind dws) => if kind = k then some dws else none
    | _ => none
  else none

/-- Twifomon takes that message. -/
def takeFw (rsp : Bool) (s : State) : State := takeRx .twin rsp true s

/-- This block coordinates a commit whose PREPARE is out and whose DECIDE is not acknowledged, or the PREPARE for epoch `e` crossed one of
its own that has flipped since (R180). -/
def coordinating (s : State) (e : BitVec 16) : Bool :=
  match s.fw.commit with
  | some c => decide (c.stage ≠ .renew)
  | none => decide (e ≠ s.glb.epoch + 1)

/-- The vote on the partner's PREPARE (Table 10-2, step 5). The A block's own commit goes first (R180). -/
def voteOn (e : BitVec 16) (w : Option CommitWhat) (s : State) : State :=
  if s.twin.state = .rewash then voteNo e stBusy s
  else if !isPaired s then voteNo e stTwin s
  else if coordinating s e && !strapB s then voteNo e 0x80 s
  else if s.glb.draining || s.glb.merging then voteNo e stBusyMerging s
  else
    match w with
    | none => voteNo e stBadArg s
    | some (.txn t) =>
      if !admission s t (ceilNow s) then voteNo e stAdmission s
      else if !recheck s none t then voteNo e stBadArg s
      else voteYes (.txn t) e s
    | some (.destroy t) =>
      if (sealing s).contains t then voteNo e stBusy s
      else afterDlv ((destroyStart t s).upFw fun f => { f with voteDestroy := some (t, e) })

/-- A command of the partner that R196 or R204 has this block perform too (log entry 117): a mask, or the witness address. -/
inductive PeerCmd where
  | mask (src : BitVec 18) (v : Bool)
  | witness (addr : BitVec 64)
deriving DecidableEq, Repr

/-- The command that a PREPARE carries in place of entries. -/
def peerCmd (dws : List DW) : Option PeerCmd :=
  let op := (fld (dwAt dws 1) 0 16).toNat
  let a := dws.drop 2
  if op = 0x0200 then some (.mask (fld (dwAt a 0) 0 18) (bitAt (dwAt a 0) 31))
  else if op = 0x0501 then some (.witness (qwAt a 0))
  else none

/-- This block performs the partner's command, and votes for it once it has settled; a QUARANTINED source is out of service as it is. -/
def performPeer (p : PeerCmd) (e : BitVec 16) (s : State) : State :=
  match p with
  | .mask src v =>
    let s1 := if (s.dyn src.toNat).st = .quarantined then s else maskOp src.toNat v s
    s1.upFw fun f => { f with asked := f.asked ++ [{ src := some src, epoch := e }] }
  | .witness a =>
    (s.upTwin fun t => { t with witness := some a, word := none, wordAt := 0 }).upFw fun f =>
      { f with asked := f.asked ++ [{ src := none, epoch := e }] }

/-- The domains that a command of the partner needs. -/
def peerWants (p : PeerCmd) : Option Nat :=
  match p with
  | .mask src _ => some (dSlc (sliceOf src))
  | .witness _ => none

/-- What a PREPARE asks for would change the DIP gate (R301). -/
def wantsDips (s : State) (w : Option CommitWhat) : Bool :=
  match w with
  | some (.txn t) => changesDip t
  | some (.destroy t) => tenDips s t
  | none => false

/-- What a PREPARE for epoch `e` with blocks `dws` does; a command of the partner whose slice is gated, or a change of the DIP
gate while a DIP is, wakes it, and the message waits. -/
def prepareIn (dws : List DW) (s : State) : State :=
  let e : BitVec 16 := fld (dwAt dws 0) 0 16
  match peerCmd dws with
  | some p =>
    match peerWants p with
    | some d => if domOn s d then settleMbx (performPeer p e (takeFw false s)) else wake d s
    | none => settleMbx (performPeer p e (takeFw false s))
  | none =>
    let w := readBlocks (dws.length + 1) (dws.drop 1) (some (.txn Txn.empty))
    if wantsDips s w && dipAsleep s then wakeDips s else voteOn e w (takeFw false s)

/-- PREPARE_RECEIVED. -/
def doPrepareReceived (s : State) : State :=
  match fwHead s false 0x01 with
  | some dws => if aloneSolo s then takeFw false s else prepareIn dws s
  | none => s

def execPrepareReceived (s : State) : Host.Outcome State Fault Refusal := .next (s.run doPrepareReceived)

/-- A NO vote ends the commit with its reason; CROSSING sends it back to step 1 (R180). -/
def votedNo (c : CommitRun) (reason : Byte) (s : State) : State :=
  if reason ≠ 0x80 then failRun c reason s
  else
    let s1 := s.upFw fun f => { f with commit := none }
    if inCommit s1 c.mbx then
      match c.what with
      | .txn _ => waitOn c.mbx .commitWait s1
      | .destroy t => waitOn c.mbx (.destroy t) s1
    else s1

/-- The commit of this block that awaits a vote on epoch `e`. -/
def voted (s : State) (e : BitVec 16) : Option CommitRun := s.fw.commit.filter fun c => decide (c.stage = .vote) && decide (c.epoch = e)

/-- The coordinator flips exactly on YES, and sends DECIDE. -/
def voteIn (c : CommitRun) (w : DW) (s : State) : State :=
  if bitAt w 16 then afterDlv (sendDecide (flipRun c (s.upFw fun f => { f with commit := some { c with stage := .ack } })))
  else settleMbx (votedNo c (fld w 24 8) s)

/-- The partner has performed a command of mailbox `m` (R196, R204). -/
def peerDone (m : Mbx) (s : State) : State :=
  match (s.mailbox (mbxKey m)).busy with
  | .mask src true => waitOn m (.mask src false) s
  | .witness a (some w) => answer m stOk [] (s.upTwin fun t => { t with witness := some a, word := some w, wordAt := s.glb.now })
  | _ => s

/-- A vote on the oldest command that the partner was asked to perform. -/
def askVoted (e : BitVec 16) (s : State) : State :=
  match s.fw.asks with
  | x :: rest =>
    if x.epoch ≠ e then s
    else
      let s1 := s.upFw fun f => { f with asks := rest }
      match x.mbx with
      | some m => settleMbx (peerDone m s1)
      | none => s1
  | [] => s

/-- VOTE_RECEIVED. -/
def doVoteReceived (s : State) : State :=
  match fwHead s true 0x02 with
  | some dws =>
    let w := dwAt dws 0
    let s1 := takeFw true s
    match voted s1 (fld w 0 16) with
    | some c => voteIn c w s1
    | none => askVoted (fld w 0 16) s1
  | none => s

def execVoteReceived (s : State) : Host.Outcome State Fault Refusal := .next (s.run doVoteReceived)

/-- VOTE_TIMEOUT: no vote within 1 ms (Table 10-3). -/
def doVoteTimeout (s : State) : State :=
  match s.fw.commit with
  | some c =>
    if c.stage = .vote ∧ c.sentAt.toNat + 1000000 ≤ s.glb.now.toNat ∧ fwReady s then settleMbx (noVote c s) else s
  | none => s

def execVoteTimeout (s : State) : Host.Outcome State Fault Refusal := .next (s.run doVoteTimeout)

/-- DECIDE_RECEIVED: the prepared transaction flips, PREPARED falls, and the block acknowledges. -/
def doDecideReceived (s : State) : State :=
  match fwHead s false 0x03 with
  | some dws =>
    let s1 := takeFw false s
    match s1.fw.prepared with
    | some p =>
      if aloneSolo s ∨ p.epoch ≠ fld (dwAt dws 0) 0 16 then s1
      else afterDlv (sendRsp (.fw 0x04 [p.epoch.setWidth 32]) (flipPrepared p s1))
    | none => s1
  | none => s

def execDecideReceived (s : State) : Host.Outcome State Fault Refusal := .next (s.run doDecideReceived)

/-- DECIDE_ACK_RECEIVED: the coordinator answers OK. -/
def doDecideAckReceived (s : State) : State :=
  match fwHead s true 0x04 with
  | some dws =>
    let s1 := takeFw true s
    match s1.fw.commit with
    | some c => if c.stage = .ack ∧ c.epoch = fld (dwAt dws 0) 0 16 then settleMbx (answerRun c s1) else s1
    | none => s1
  | none => s

def execDecideAckReceived (s : State) : Host.Outcome State Fault Refusal := .next (s.run doDecideAckReceived)

/-! ### Loss and takeover (R199–R201) -/

/-- PARTNER_LOSS: heartbeats have been silent, the link is down, or the partner is FATAL. -/
def doPartnerLoss (s : State) : State :=
  if twinOn s && hasPartner s then settleMbx (presume (partnerLost s)) else s

def execPartnerLoss (s : State) : Host.Outcome State Fault Refusal := .next (s.run doPartnerLoss)

/-- TAKEOVER_EVENT_APPLY: the source is given its event (R200), also where Table 11-4 or R65 lets it have no effect. -/
def doTakeoverEventApply (src : BitVec 18) (s : State) : State :=
  match s.twin.takeLeft with
  | some l =>
    let k := src.toNat
    if !l.contains k || !applying s || s.log.fatal then s
    else if !domOn s (dSlc (sliceOf src)) then wake (dSlc (sliceOf src)) s
    else
      let s1 := s.upTwin fun w => { w with takeLeft := some (l.erase k) }
      afterDlv (takeoverApply k (bump (smtPage + 0x018) (stampApply (sliceOf src) s1)))
  | none => s

def execTakeoverEventApply (src : BitVec 18) (s : State) : Host.Outcome State Fault Refusal :=
  .next (s.run (doTakeoverEventApply src))

/-- TAKEOVER_COMPLETE: the mirror view is cleared, TAKEOVERS counts, TAKEOVER is set, and a CE names Seam-T (R200). -/
def doTakeoverComplete (s : State) : State :=
  if s.twin.takeLeft = some [] then
    let s1 := s.upTwin fun w => { w with takeLeft := none, view := [], rxDirty := [], takeovers := w.takeovers + 1 }
    linkCE .twinTakeover .twin (setTakeoverFlag s1 (takeoverFlag s1).hwSet)
  else s

def execTakeoverComplete (s : State) : Host.Outcome State Fault Refusal := .next (s.run doTakeoverComplete)

/-! ### The lease (R204–R206) -/

/-- LEASE_TAKE: an ALONE block reads the word, at once or 10 ms after it last did; its response decides on the swap. -/
def doLeaseTake (s : State) : State :=
  if powered s && fwReady s && decide (s.twin.state = .alone) && s.twin.witness.isSome && !leaseBusy s &&
      (decide (s.twin.wordAt = 0) || wordOld s) then
    readReq .leaseRead s
  else s

def execLeaseTake (s : State) : Host.Outcome State Fault Refusal := .next (s.run doLeaseTake)

/-- Starts a renewal against the value last read (R205). -/
def startRenew (s : State) : State :=
  match s.twin.word with
  | some w => readReq (.leaseRenew w (leaseSwap s true w)) s
  | none => s

/-- The commit that waits for a renewal, if any. -/
def renewing (s : State) : Option CommitRun := s.fw.commit.filter fun c => decide (c.stage = .renew)

/-- LEASE_RENEW: 1 ms after the last renewal, and at once for a commit that waits for its own (R206). -/
def doLeaseRenew (s : State) : State :=
  if powered s && fwReady s && s.twin.lease && !leaseBusy s then
    if (renewing s).isSome then renewCommit s
    else if s.twin.renewAt.toNat + 1000000 ≤ s.glb.now.toNat then startRenew s
    else s
  else s

def execLeaseRenew (s : State) : Host.Outcome State Fault Refusal := .next (s.run doLeaseRenew)

/-- The commit that waits for a renewal ends without a flip (R206). -/
def renewFailed (s : State) : State :=
  match renewing s with
  | some c => failRun c stTwin s
  | none => s

/-- The lease is gone: a SOLO block is ALONE, a commit that waits for a renewal fails, and a Rewash that waits for the release goes on. -/
def leaseGone (s : State) : State := finishRewash (renewFailed (dropLease s))

/-- LEASE_LAPSE: 5 ms by AON's delay element without a renewal, whether or not Twifomon runs. -/
def doLeaseLapse (s : State) : State :=
  if s.twin.lease then settleMbx (if fwReady s then leaseGone s else dropLease s) else s

def execLeaseLapse (s : State) : Host.Outcome State Fault Refusal := .next (s.run doLeaseLapse)

/-- What follows a lease request that has ended, where the lease still stands: the commit's own renewal, or the release of a Rewash. -/
def leaseNext (s : State) : State := finishRewash (renewCommit s)

/-- A renewal's response with the old value: the lease is renewed, or lost at once. `mine` is the renewal of a commit's step 3, which flips it
(R206). A renewal that comes after the lease has lapsed counts for nothing. -/
def renewResult (mine : Bool) (compare swap old : BitVec 64) (s : State) : State :=
  let s1 := s.upTwin fun w => { w with word := some (if old = compare then swap else old), wordAt := s.glb.now }
  if !s.twin.lease then renewFailed s1
  else if old ≠ compare then leaseGone s1
  else
    let s2 := s1.upTwin fun w => { w with renewAt := s.glb.now }
    match mine, renewing s2 with
    | true, some c => renewed c s2
    | _, _ => leaseNext s2

/-- The release's response: the lease is released. A swap that found another value of this block's own is made again (R205). -/
def releaseResult (compare swap old : BitVec 64) (s : State) : State :=
  let s1 := s.upTwin fun w => { w with word := some (if old = compare then swap else old), wordAt := s.glb.now }
  if decide (old ≠ compare) && s.twin.lease && wordHeld old && wordOwn s old then leaseNext s1 else leaseGone s1

/-- A swap that takes the lease has succeeded (R205): ALONE, the block is SOLO; in a Rewash it holds the lease until step 5; a PAIRED or
DEGRADED block never takes it, and gives it back. -/
def takeResult (w : BitVec 64) (s : State) : State :=
  if isPaired s then readReq (.leaseRelease w (leaseSwap s false w)) (s.upTwin fun t => { t with word := some w, wordAt := s.glb.now })
  else gotLease w s

/-- The word of TWIN_WITNESS has been read (R204): the partner stores the address too before the answer. -/
def witnessResult (m : Mbx) (a w : BitVec 64) (s : State) : State :=
  if (s.mailbox (mbxKey m)).busy ≠ .witness a none then s
  else if fld w 48 16 ≠ 0x5E17 ∨ fld w 0 11 ≠ ownBlk s then answer m stBadArg [] s
  else if s.twin.state ≠ .paired then answer m stTwin [] s
  else askPeer m (blockDws 0x0501 (two a)) (waitOn m (.witness a (some w)) s)

/-- A response with STATUS OK and `old` in [63:0]. -/
def readOk (what : RdWhat) (old : BitVec 64) (s : State) : State :=
  match what with
  | .leaseRead => judgeRead old s
  | .leaseTake c w =>
    if old = c then takeResult w s else s.upTwin fun t => { t with word := some old, wordAt := s.glb.now }
  | .leaseRenew c w => renewResult false c w old s
  | .leaseCommit c w => renewResult true c w old s
  | .leaseRelease c w => releaseResult c w old s
  | .witness m a => witnessResult m a old s

/-- ERR, or no response: the block stays ALONE and tries again after 10 ms; a commit's own renewal that fails ends it; a release and a
read of TWIN_WITNESS are made again (R31, R205, R206). -/
def readErr (what : RdWhat) (s : State) : State :=
  match what with
  | .leaseRead | .leaseTake _ _ => s.upTwin fun t => { t with wordAt := s.glb.now }
  | .leaseCommit _ _ => renewFailed s
  | .leaseRenew _ _ | .leaseRelease _ _ => leaseNext s
  | .witness m a => if (s.mailbox (mbxKey m)).busy = .witness a none then readReq what s else s

/-- RCH_RESPONSE (R31): a parity error counts as ERR; a TAG that is not outstanding is discarded (Table 2-2b). -/
def doRchResponse (rs : BitVec 11) (r : BitVec 512) (rp : BitVec 32) (s : State) : State :=
  let tag := (fld rs 0 8).toNat
  if !powered s then s
  else
    let good := decide (groupParity r 32 = rp)
    let s1 := if good then s else portParity pRch s
    match s1.rdOf tag with
    | none => s1
    | some x =>
      let s2 := s1.setRd tag none
      if !fwReady s2 then s2
      else if good ∧ fld rs 8 3 = 0 then afterDlv (readOk x.what (fld r 0 64) s2)
      else settleMbx (readErr x.what s2)

def execRchResponse (rs : BitVec 11) (r : BitVec 512) (rp : BitVec 32) (s : State) : Host.Outcome State Fault Refusal :=
  .next (s.run (doRchResponse rs r rp))

/-- READ_TIMEOUT: 10 ms without a response count as ERR (R31). -/
def doReadTimeout (tag : Nat) (s : State) : State :=
  match s.rdOf tag with
  | some x =>
    if powered s && decide (x.time.toNat + 10000000 ≤ s.glb.now.toNat) then
      let s1 := s.setRd tag none
      if fwReady s1 then settleMbx (readErr x.what s1) else s1
    else s
  | none => s

def execReadTimeout (tag : BitVec 8) (s : State) : Host.Outcome State Fault Refusal := .next (s.run (doReadTimeout tag.toNat))

/-! ### Rewash (R207–R209, R263) -/

/-- REWASH: Twifomon begins step 2, or says that step 4 is over where it could not at the time. -/
def doRewash (s : State) : State :=
  if twinOn s && twinUp s && fwReady s && decide (s.twin.state = .rewash) then
    match s.twin.rewash with
    | none => startRewash none s
    | some _ => settleMbx (finishRewash (sayDone s))
  else s

def execRewash (s : State) : Host.Outcome State Fault Refusal := .next (s.run doRewash)

/-- Something of tenant `t` stands on this block: its record, a key, or an object. -/
def tenantStands (s : State) (t : BitVec 8) : Bool :=
  decide ({ s.tenantR t.toNat with retired := false } ≠ tenantD t.toNat) || (s.recKey t.toNat).isSome || (s.ledKey t.toNat).isSome ||
    decide (granulesOf s t ≠ []) || decide (ringsOf s t ≠ []) ||
    (s.gates.region.any fun p => decide (regTen (s.region p.1) = t)) || (s.dlv.mcast.any fun p => decide ((s.mcastV p.1).cur.ten = t)) ||
    (s.dlv.remote.any fun p => decide (remTen (s.remoteV p.1).cur = t)) || s.dlv.group.any fun p => decide (grpTen (s.group p.1) = t)

/-- Tenants that the partner has retired and of which something stands here (R263). -/
def owedDestroys (s : State) (i : RewashInfo) : List (BitVec 8) :=
  ((List.range 256).map (BitVec.ofNat 8)).filter fun t => bitAt i.retired t.toNat && decide (t ≠ 0) && tenantStands s t

/-- Both sides know each other: the keeper sends its entries, the adopter discards its transactions (Table 11-6, steps 2 and 3). -/
def chooseKeeper (i : RewashInfo) (s : State) : State :=
  match s.twin.rewash with
  | some r =>
    let own := ownInfo s r.byCommand.isSome
    let k := keeps s own i
    let s1 := s.upTwin fun w => { w with rewash := some { r with info := some i, keeper := some k } }
    if k then startSnapshots (sendEntries i s1) else discardAll s1
  | none => s

/-- A commit that runs when Rewash begins ends with BUSY, unless it has flipped (R207). -/
def rewashCommit (s : State) : State :=
  match s.fw.commit with
  | some c => if c.stage = .ack then answerRun c s else failRun c stBusy s
  | none => s

/-- The block is in Rewash, and its own REWASH_INFO has left. -/
def joinRewash (s : State) : State :=
  let s1 := if s.twin.state = .rewash then s else enterRewash (rewashCommit s)
  if s1.twin.rewash.isNone then startRewash none s1 else s1

/-- REWASH_INFO_RECEIVED: the destroys that the partner carries come first, and the message is kept until their tenants' work has drained
(R263). -/
def doRewashInfoReceived (s : State) : State :=
  match fwHead s false 0x10 with
  | some dws =>
    if s.twin.state ≠ .rewash ∧ !isPaired s then s
    else
      let i := infoOf dws
      let s1 := joinRewash s
      let ts := owedDestroys s1 i
      if (ts.any fun t => tenDips s1 t) && dipAsleep s1 then wakeDips s1 else
      let s2 := ts.foldl (fun s t => destroyStart t s) s1
      if ts.all (destroyDrained s2) then
        afterDlv (sayDone (chooseKeeper i (takeFw false (ts.foldl (fun s t => destroyFinish t s) s2))))
      else afterDlv s2
  | none => s

def execRewashInfoReceived (s : State) : Host.Outcome State Fault Refusal := .next (s.run doRewashInfoReceived)

/-- What the entries of a message install. -/
def adoptTxn (w : Option CommitWhat) : Txn :=
  match w with
  | some (.txn t) => t
  | _ => Txn.empty

/-- REWASH_ENTRIES_RECEIVED: the adopter flips once its last flip has drained and merged; the flip that sets the keeper's epoch is the
last, and its own snapshots follow. -/
def doRewashEntriesReceived (s : State) : State :=
  match fwHead s false 0x11, s.twin.rewash with
  | some dws, some r =>
    match r.info, r.keeper with
    | some i, some false =>
      if s.glb.draining || s.glb.merging then s
      else
        let x : BitVec 16 := fld (dwAt dws 0) 0 16
        let t := adoptTxn (readBlocks (dws.length + 1) (dws.drop 1) (some (.txn Txn.empty)))
        if changesDip (differing s t) && dipAsleep s then wakeDips s else
        let s1 := adoptFlip x t (takeFw false s)
        afterDlv (if x = i.epoch then startSnapshots s1 else s1)
    | _, _ => s
  | _, _ => s

def execRewashEntriesReceived (s : State) : Host.Outcome State Fault Refusal := .next (s.run doRewashEntriesReceived)

/-- REWASH_DONE_RECEIVED: the partner has every snapshot of this block. -/
def doRewashDoneReceived (s : State) : State :=
  match fwHead s true 0x12, s.twin.rewash with
  | some _, some r => settleMbx (finishRewash ((takeFw true s).upTwin fun w => { w with rewash := some { r with done := true } }))
  | some _, none => takeFw true s
  | none, _ => s

def execRewashDoneReceived (s : State) : Host.Outcome State Fault Refusal := .next (s.run doRewashDoneReceived)

/-- TALLY_CKPT_RECEIVED: AON keeps the partner's latest Ticket of each tenant (R278). -/
def doTallyCkptReceived (s : State) : State :=
  match headRx s .twin false false with
  | some (.fw _ dws) =>
    if !twinOn s then s
    else
      let s1 := (takeRx .twin false false s).setCkpt (fld (dwAt dws 0) 0 8).toNat (some (dws.take 32))
      s1.upTwin fun w => { w with ckptWrite := w.ckptWrite || decide (w.state = .alone) || decide (w.state = .solo) }
  | _ => s

def execTallyCkptReceived (s : State) : Host.Outcome State Fault Refusal := .next (s.run doTallyCkptReceived)

end Sys2Proof.Machine
end

