-- ==== Sys2Proof/Machine/Dispatch.lean ====
section
/-! DEFINITION. exec: one arm per command. -/

namespace Sys2Proof.Machine

/-- The effect of a command on everything but the queue. -/
def exec (i : Instr) (s : State) : Host.Outcome State Fault Refusal :=
  match i with
  | .dipHandshake dip mv d => Sys2Proof.Machine.execDipHandshake dip mv d s
  | .folderSliceAnswer dip src => Sys2Proof.Machine.execFolderSliceAnswer dip src s
  | .sliceApply o slice => Sys2Proof.Machine.execSliceApply o slice s
  | .edgeCaught n => Sys2Proof.Machine.execEdgeCaught n s
  | .levelChangeSettled n level => Sys2Proof.Machine.execLevelChangeSettled n level s
  | .wiredPresentation n => Sys2Proof.Machine.execWiredPresentation n s
  | .select slice => Sys2Proof.Machine.execSelect slice s
  | .levelQueueEntry lvl => Sys2Proof.Machine.execLevelQueueEntry lvl s
  | .pacerTokenTaken lvl => Sys2Proof.Machine.execPacerTokenTaken lvl s
  | .arbiterDecision ch => Sys2Proof.Machine.execArbiterDecision ch s
  | .gatherWindowEnd ch => Sys2Proof.Machine.execGatherWindowEnd ch s
  | .withdrawSettle src => Sys2Proof.Machine.execWithdrawSettle src s
  | .launch ch => Sys2Proof.Machine.execLaunch ch s
  | .relayStageGrant lvl => Sys2Proof.Machine.execRelayStageGrant lvl s
  | .bundleLaunch => Sys2Proof.Machine.execBundleLaunch s
  | .wchCompletion ch cpl => Sys2Proof.Machine.execWchCompletion ch cpl s
  | .writeTimeout ch tag => Sys2Proof.Machine.execWriteTimeout ch tag s
  | .rchResponse rs r rp => Sys2Proof.Machine.execRchResponse rs r rp s
  | .readTimeout tag => Sys2Proof.Machine.execReadTimeout tag s
  | .timePortValue v p => Sys2Proof.Machine.execTimePortValue v p s
  | .timeStall => Sys2Proof.Machine.execTimeStall s
  | .soakEnd g => Sys2Proof.Machine.execSoakEnd g s
  | .pacerPeriodEnd unacked0 unacked1 unacked2 unacked3 => Sys2Proof.Machine.execPacerPeriodEnd unacked0 unacked1 unacked2 unacked3 s
  | .minuteBoundary => Sys2Proof.Machine.execMinuteBoundary s
  | .counterSnapshotCapture => Sys2Proof.Machine.execCounterSnapshotCapture s
  | .tackLeaseExpiry n => Sys2Proof.Machine.execTackLeaseExpiry n s
  | .sliceIdleGate slice => Sys2Proof.Machine.execSliceIdleGate slice s
  | .dipIdleGate dip => Sys2Proof.Machine.execDipIdleGate dip s
  | .cryIdleRelease => Sys2Proof.Machine.execCryIdleRelease s
  | .portResetNotify p => Sys2Proof.Machine.execPortResetNotify p s
  | .domainReady d => Sys2Proof.Machine.execDomainReady d s
  | .domainPowerOffAck d => Sys2Proof.Machine.execDomainPowerOffAck d s
  | .pwrTimeout d => Sys2Proof.Machine.execPwrTimeout d s
  | .aonPowerDown => Sys2Proof.Machine.execAonPowerDown s
  | .coldStart => Sys2Proof.Machine.execColdStart s
  | .supplyOkRise straps => Sys2Proof.Machine.execSupplyOkRise straps s
  | .captureEntry => Sys2Proof.Machine.execCaptureEntry s
  | .fwBootReady img => Sys2Proof.Machine.execFwBootReady img s
  | .fwBootRetry fetchErr sigBad => Sys2Proof.Machine.execFwBootRetry fetchErr sigBad s
  | .brownOut => Sys2Proof.Machine.execBrownOut s
  | .warmResetEntry => Sys2Proof.Machine.execWarmResetEntry s
  | .warmDrainComplete cut => Sys2Proof.Machine.execWarmDrainComplete cut s
  | .warmResetRelease straps => Sys2Proof.Machine.execWarmResetRelease straps s
  | .testModeSelect on => Sys2Proof.Machine.execTestModeSelect on s
  | .scanEntry => Sys2Proof.Machine.execScanEntry s
  | .scanStopped => Sys2Proof.Machine.execScanStopped s
  | .scanEnd => Sys2Proof.Machine.execScanEnd s
  | .drainComplete => Sys2Proof.Machine.execDrainComplete s
  | .mergeEntry src stolen => Sys2Proof.Machine.execMergeEntry src stolen s
  | .scrubWord unit store word r => Sys2Proof.Machine.execScrubWord unit store word r s
  | .errorDetected k unit detail => Sys2Proof.Machine.execErrorDetected k unit detail s
  | .errorRingCopy => Sys2Proof.Machine.execErrorRingCopy s
  | .ceAutoAck e => Sys2Proof.Machine.execCeAutoAck e s
  | .lostSummary => Sys2Proof.Machine.execLostSummary s
  | .coreFault f => Sys2Proof.Machine.execCoreFault f s
  | .coreWdog => Sys2Proof.Machine.execCoreWdog s
  | .fwRestartReady verified => Sys2Proof.Machine.execFwRestartReady verified s
  | .mbxGo m data rq => Sys2Proof.Machine.execMbxGo m data rq s
  | .mbxArgsTaken m => Sys2Proof.Machine.execMbxArgsTaken m s
  | .mbxSlow m => Sys2Proof.Machine.execMbxSlow m s
  | .mbxNop m => Sys2Proof.Machine.execMbxNop m s
  | .mbxInfo m => Sys2Proof.Machine.execMbxInfo m s
  | .txnBegin m => Sys2Proof.Machine.execTxnBegin m s
  | .txnCommit m => Sys2Proof.Machine.execTxnCommit m s
  | .txnAbort m => Sys2Proof.Machine.execTxnAbort m s
  | .txnStatus m => Sys2Proof.Machine.execTxnStatus m s
  | .srcStage m => Sys2Proof.Machine.execSrcStage m s
  | .ringStage m => Sys2Proof.Machine.execRingStage m s
  | .gateStage m => Sys2Proof.Machine.execGateStage m s
  | .mcastStage m => Sys2Proof.Machine.execMcastStage m s
  | .remoteStage m => Sys2Proof.Machine.execRemoteStage m s
  | .groupStage m => Sys2Proof.Machine.execGroupStage m s
  | .sysFence m => Sys2Proof.Machine.execSysFence m s
  | .srcMask m => Sys2Proof.Machine.execSrcMask m s
  | .srcRead m => Sys2Proof.Machine.execSrcRead m s
  | .ringQuiesce m => Sys2Proof.Machine.execRingQuiesce m s
  | .ringRead m => Sys2Proof.Machine.execRingRead m s
  | .tenGranule m => Sys2Proof.Machine.execTenGranule m s
  | .tenColour m => Sys2Proof.Machine.execTenColour m s
  | .tenShare m => Sys2Proof.Machine.execTenShare m s
  | .tenGrant m => Sys2Proof.Machine.execTenGrant m s
  | .tenHandle m => Sys2Proof.Machine.execTenHandle m s
  | .tenStatus m => Sys2Proof.Machine.execTenStatus m s
  | .tenSeal m => Sys2Proof.Machine.execTenSeal m s
  | .tenDestroy m => Sys2Proof.Machine.execTenDestroy m s
  | .prfSet m => Sys2Proof.Machine.execPrfSet m s
  | .twinStatus m => Sys2Proof.Machine.execTwinStatus m s
  | .twinWitness m => Sys2Proof.Machine.execTwinWitness m s
  | .twinRewash m => Sys2Proof.Machine.execTwinRewash m s
  | .relayRoute m => Sys2Proof.Machine.execRelayRoute m s
  | .relayFence m => Sys2Proof.Machine.execRelayFence m s
  | .relayStatus m => Sys2Proof.Machine.execRelayStatus m s
  | .spdmMsg m req => Sys2Proof.Machine.execSpdmMsg m req s
  | .fwStage m img => Sys2Proof.Machine.execFwStage m img s
  | .fwActivate m => Sys2Proof.Machine.execFwActivate m s
  | .fwActivateReady => Sys2Proof.Machine.execFwActivateReady s
  | .fwFallback => Sys2Proof.Machine.execFwFallback s
  | .fwStatus m => Sys2Proof.Machine.execFwStatus m s
  | .tlyLedger m => Sys2Proof.Machine.execTlyLedger m s
  | .ctrConfig m => Sys2Proof.Machine.execCtrConfig m s
  | .ctrSnapshot m => Sys2Proof.Machine.execCtrSnapshot m s
  | .recScan m => Sys2Proof.Machine.execRecScan m s
  | .recResume m => Sys2Proof.Machine.execRecResume m s
  | .errAck m clean syndrome entry => Sys2Proof.Machine.execErrAck m clean syndrome entry s
  | .errLogfailClr m clean syndrome entry => Sys2Proof.Machine.execErrLogfailClr m clean syndrome entry s
  | .lnConsWrite ring a data rq => Sys2Proof.Machine.execLnConsWrite ring a data rq s
  | .lnRunlvlWrite ring a data rq => Sys2Proof.Machine.execLnRunlvlWrite ring a data rq s
  | .lnEoiWrite ring a data rq => Sys2Proof.Machine.execLnEoiWrite ring a data rq s
  | .tkAcqRead n a rq => Sys2Proof.Machine.execTkAcqRead n a rq s
  | .tkRel n rq => Sys2Proof.Machine.execTkRel n rq s
  | .tkBreak n rq => Sys2Proof.Machine.execTkBreak n rq s
  | .tkLeaseWrite n a data rq => Sys2Proof.Machine.execTkLeaseWrite n a data rq s
  | .slcMaskOpGo src value rq => Sys2Proof.Machine.execSlcMaskOpGo src value rq s
  | .gtUpdGo rq => Sys2Proof.Machine.execGtUpdGo rq s
  | .gateUpdate => Sys2Proof.Machine.execGateUpdate s
  | .dlvRstgGo rq => Sys2Proof.Machine.execDlvRstgGo rq s
  | .slcSrcGo rq => Sys2Proof.Machine.execSlcSrcGo rq s
  | .slcSrcSelWrite a data rq => Sys2Proof.Machine.execSlcSrcSelWrite a data rq s
  | .prfSelWrite a data rq => Sys2Proof.Machine.execPrfSelWrite a data rq s
  | .profileChangeComplete => Sys2Proof.Machine.execProfileChangeComplete s
  | .errCoreRestart rq => Sys2Proof.Machine.execErrCoreRestart rq s
  | .errRingBaseWrite a data rq => Sys2Proof.Machine.execErrRingBaseWrite a data rq s
  | .consIndexWrite r a data rq => Sys2Proof.Machine.execConsIndexWrite r a data rq s
  | .arbiterConfigWrite r a data rq => Sys2Proof.Machine.execArbiterConfigWrite r a data rq s
  | .smtLaneCfgWrite a data rq => Sys2Proof.Machine.execSmtLaneCfgWrite a data rq s
  | .statusFlagClear f tag rq => Sys2Proof.Machine.execStatusFlagClear f tag rq s
  | .counterWrite offset a data rq => Sys2Proof.Machine.execCounterWrite offset a data rq s
  | .registerWrite q qp => Sys2Proof.Machine.execRegisterWrite q qp s
  | .flitReceived f => Sys2Proof.Machine.execFlitReceived f s
  | .flitTransmit l => Sys2Proof.Machine.execFlitTransmit l s
  | .replayTimeout l seq => Sys2Proof.Machine.execReplayTimeout l seq s
  | .ackTimer l => Sys2Proof.Machine.execAckTimer l s
  | .darnSend l => Sys2Proof.Machine.execDarnSend l s
  | .heartbeatSend => Sys2Proof.Machine.execHeartbeatSend s
  | .retrainStart l => Sys2Proof.Machine.execRetrainStart l s
  | .retrainFail l => Sys2Proof.Machine.execRetrainFail l s
  | .graceEndRinse l => Sys2Proof.Machine.execGraceEndRinse l s
  | .laneDrop lane => Sys2Proof.Machine.execLaneDrop lane s
  | .laneAdd lane => Sys2Proof.Machine.execLaneAdd lane s
  | .sessionOpen blk strap => Sys2Proof.Machine.execSessionOpen blk strap s
  | .sessionClose blk strap => Sys2Proof.Machine.execSessionClose blk strap s
  | .trainingTimeout => Sys2Proof.Machine.execTrainingTimeout s
  | .trainingRetry => Sys2Proof.Machine.execTrainingRetry s
  | .mirrorReceived => Sys2Proof.Machine.execMirrorReceived s
  | .dirtyReceived => Sys2Proof.Machine.execDirtyReceived s
  | .snapshotReceived => Sys2Proof.Machine.execSnapshotReceived s
  | .forwardReceived => Sys2Proof.Machine.execForwardReceived s
  | .mirrorSend => Sys2Proof.Machine.execMirrorSend s
  | .snapshotSend => Sys2Proof.Machine.execSnapshotSend s
  | .prepareReceived => Sys2Proof.Machine.execPrepareReceived s
  | .voteReceived => Sys2Proof.Machine.execVoteReceived s
  | .voteTimeout => Sys2Proof.Machine.execVoteTimeout s
  | .decideReceived => Sys2Proof.Machine.execDecideReceived s
  | .decideAckReceived => Sys2Proof.Machine.execDecideAckReceived s
  | .partnerLoss => Sys2Proof.Machine.execPartnerLoss s
  | .takeoverEventApply src => Sys2Proof.Machine.execTakeoverEventApply src s
  | .takeoverComplete => Sys2Proof.Machine.execTakeoverComplete s
  | .leaseTake => Sys2Proof.Machine.execLeaseTake s
  | .leaseRenew => Sys2Proof.Machine.execLeaseRenew s
  | .leaseLapse => Sys2Proof.Machine.execLeaseLapse s
  | .rewash => Sys2Proof.Machine.execRewash s
  | .rewashInfoReceived => Sys2Proof.Machine.execRewashInfoReceived s
  | .rewashEntriesReceived => Sys2Proof.Machine.execRewashEntriesReceived s
  | .rewashDoneReceived => Sys2Proof.Machine.execRewashDoneReceived s
  | .tallyCkptReceived => Sys2Proof.Machine.execTallyCkptReceived s
  | .bundleReceived blk strap => Sys2Proof.Machine.execBundleReceived blk strap s
  | .inboxRelease ring => Sys2Proof.Machine.execInboxRelease ring s
  | .relayDiscard ring => Sys2Proof.Machine.execRelayDiscard ring s
  | .bundleAckReceived blk strap => Sys2Proof.Machine.execBundleAckReceived blk strap s
  | .bundleResendReceived blk strap => Sys2Proof.Machine.execBundleResendReceived blk strap s
  | .relayPathFail blk strap => Sys2Proof.Machine.execRelayPathFail blk strap s
  | .relayPathRetry blk strap => Sys2Proof.Machine.execRelayPathRetry blk strap s
  | .rtpRead q qp => Sys2Proof.Machine.execRtpRead q qp s
  | .smtLnRdyRise lane => Sys2Proof.Machine.execSmtLnRdyRise lane s

end Sys2Proof.Machine
end

