-- ==== Sys2Proof/Safety.lean ====
section
/-! DEFINITION. The terms in which claims are stated: a command completes, the components of State, what a command leaves
unchanged, and what counts as a good state. -/

namespace Sys2Proof.Safety

open Sys2Proof.Machine

/-- A command completes: exec answers a next state. -/
def Completes (c : Instr) (s : State) : Prop := ∃ t, exec c s = .next t

/-- The components of State. -/
inductive Comp where
  | pending | out | stepNo | freeCtr | pwr | glb | intake | slc | dlv | gates | mbx | tenant | fw | twin | link | relay
  | tly | ctr | log | tack
deriving DecidableEq, Repr

/-- A state with the components `cs` blanked: two states agree outside `cs` exactly when these are equal. -/
def blank (cs : List Comp) (s : State) : State :=
  { pending := if .pending ∈ cs then [] else s.pending
    out := if .out ∈ cs then [] else s.out
    stepNo := if .stepNo ∈ cs then 0 else s.stepNo
    freeCtr := if .freeCtr ∈ cs then 0 else s.freeCtr
    pwr := if .pwr ∈ cs then Pwr.reset else s.pwr
    glb := if .glb ∈ cs then Glb.reset else s.glb
    intake := if .intake ∈ cs then Intake.reset else s.intake
    slc := if .slc ∈ cs then Slices.reset else s.slc
    dlv := if .dlv ∈ cs then Dlv.reset else s.dlv
    gates := if .gates ∈ cs then Gates.reset else s.gates
    mbx := if .mbx ∈ cs then [] else s.mbx
    tenant := if .tenant ∈ cs then [] else s.tenant
    fw := if .fw ∈ cs then Fw.reset else s.fw
    twin := if .twin ∈ cs then Twin.reset else s.twin
    link := if .link ∈ cs then [] else s.link
    relay := if .relay ∈ cs then Relay.reset else s.relay
    tly := if .tly ∈ cs then Tly.reset else s.tly
    ctr := if .ctr ∈ cs then Ctr.reset else s.ctr
    log := if .log ∈ cs then Log.reset else s.log
    tack := if .tack ∈ cs then [] else s.tack }

/-- The two states agree on every component outside `cs`. -/
def Only (cs : List Comp) (s t : State) : Prop := blank cs t = blank cs s

/-- The block has not powered down with AON_POWER_DOWN (R41). -/
def Up (s : State) : Prop := s.pwr.phase ≠ .down

/-! ### Mailbox commands -/

/-- Mailbox `m` runs command `op`, copied as `c`: Twifomon is READY, steps 1 to 3 of Table 9-7 are done, and the checks that every command
passes are passed: ARGLEN at most 1,024 with at least `n` DWs, and no sealing in the way (R173). -/
structure Serves (m : Mbx) (op n : Nat) (c : Cmd) (s : State) : Prop where
  up : Up s
  running : (s.mailbox (mbxKey m)).cmd.isSome
  copied : taken s m op = some c
  short : c.argLen ≤ 1024
  args : n ≤ c.args.length
  clear : sealedNamed s m c = false

/-- In `t` the mailbox shows the answer to the command that it ran in `s`: RSP_SEQ, STATUS, RESLEN and the result; or, for a command inside
a secured message, the response carries that status and result (R166, R258). -/
def Answered (m : Mbx) (st : Byte) (res : List DW) (s t : State) : Prop :=
  (t.mailbox (mbxKey m)).rspSeq = (s.mailbox (mbxKey m)).seq ∧
  match (s.mailbox (mbxKey m)).secured with
  | none =>
    (t.mailbox (mbxKey m)).status = st ∧ (t.mailbox (mbxKey m)).resLen = BitVec.ofNat 10 (4 * res.length) ∧
      (t.mailbox (mbxKey m)).res.take res.length = res
  | some _ => (t.mailbox (mbxKey m)).plain = some (st, res) ∧ (t.mailbox (mbxKey m)).status = stOk

/-- In `t` the mailbox shows the bytes `l`, at most 768, as the response of an SPDM message (R258). -/
def Said (m : Mbx) (l : List Byte) (t : State) : Prop :=
  let n := min 768 l.length
  (t.mailbox (mbxKey m)).resLen = BitVec.ofNat 10 n ∧ (t.mailbox (mbxKey m)).res.take ((n + 3) / 4) = dwsOfBytes ((n + 3) / 4) (l.take 768)

/-- Nothing else waits for Twifomon or for a source's withdraw: no other mailbox's command is past its start, no request of the partner and
no vote is open, and no operation of SLC_MASK_OP runs. -/
def NothingElseWaits (m : Mbx) (s : State) : Prop :=
  (∀ n, n ≠ m → (s.mailbox (mbxKey n)).busy = .idle ∨ (s.mailbox (mbxKey n)).busy = .go ∨ (s.mailbox (mbxKey n)).busy = .taken) ∧
  s.fw.asked = [] ∧ s.fw.voteDestroy = none ∧ s.slc.maskRun = none

/-! ### The register target port -/

/-- The request that command `c` makes of the register target port, for the rows that make one. -/
def portRequest (s : State) : Instr → Option RtpReq
  | .mbxGo m d rq => some (rtpAt (mbxPage m) true .w8 (d ||| at64 (b1 true) 63) rq)
  | .lnConsWrite r a d rq => some (rtpAt (ringOff r 0x00) true a d rq)
  | .lnRunlvlWrite r a d rq => some (rtpAt (ringOff r 0x08) true a d rq)
  | .lnEoiWrite r a d rq => some (rtpAt (ringOff r 0x10) true a d rq)
  | .tkAcqRead n a rq => some (rtpAt (tackOff n.val 0x00) false a 0 rq)
  | .tkRel n rq => some (rtpAt (tackOff n.val 0x08) true .w8 1 rq)
  | .tkBreak n rq => some (rtpAt (tackOff n.val 0x08) true .w8 2 rq)
  | .tkLeaseWrite n a d rq => some (rtpAt (tackOff n.val 0x10) true a d rq)
  | .slcMaskOpGo src v rq => some (rtpAt 0x28000 true .w8 (at64 src 0 ||| at64 (b1 v) 18 ||| at64 (b1 true) 63) rq)
  | .gtUpdGo rq => some (rtpAt 0x40020 true .w8 1 rq)
  | .dlvRstgGo rq => some (rtpAt 0x30038 true .w8 1 rq)
  | .slcSrcGo rq => some (rtpAt 0x28020 true .w8 1 rq)
  | .slcSrcSelWrite a d rq => some (rtpAt 0x28010 true a d rq)
  | .prfSelWrite a d rq => some (rtpAt 0x40 true a d rq)
  | .errCoreRestart rq => some (rtpAt 0x2028 true .w8 1 rq)
  | .errRingBaseWrite a d rq => some (rtpAt 0x2000 true a d rq)
  | .consIndexWrite r a d rq => some (rtpAt (consOff r) true a d rq)
  | .arbiterConfigWrite r a d rq => some (rtpAt (arbOff r) true a d rq)
  | .smtLaneCfgWrite a d rq => some (rtpAt 0x50108 true a d rq)
  | .statusFlagClear f tag rq => some (rtpAt (flagWrite f tag s).1 true (flagWrite f tag s).2.1 (flagWrite f tag s).2.2 rq)
  | .counterWrite o a d rq => some (rtpAt o.toNat true a d rq)
  | .registerWrite q p => if bitAt q 26 then some (rtpOfQ q p) else none
  | .rtpRead q p => if bitAt q 26 then none else some (rtpOfQ q p)
  | _ => none

/-- Command `c` is request `q` of register `r`, and the block takes it: none waits at the port before it, its parity and alignment are good, the register gate lets it in under
region `k`, and no sealing refuses it (R32, R90, R103, R251). -/
structure Passes (c : Instr) (q : RtpReq) (r : Reg) (k : Nat) (s : State) : Prop where
  up : Up s
  taking : accepting s = true
  first : s.gates.rtpHeld = []
  asks : portRequest s c = some q
  parity : q.rq.parityOk = true
  aligned : rtpAligned q = true
  register : regAt (rtpWord q) = some r
  gate : rtpDecide s q = .lets k
  unsealed : sealedTarget s (regTen (s.region k)) r = false
  expert : expertSealed s q r = false

/-- The request passes, and the slices that it needs are awake (R315). -/
structure Lets (c : Instr) (q : RtpReq) (r : Reg) (k : Nat) (s : State) : Prop extends Passes c q r k s where
  awake : gatedOf s (needsSlices s q r) = []

/-- A write of register `r` by request `q` reaches its effect. -/
structure LetsWrite (c : Instr) (q : RtpReq) (r : Reg) (k : Nat) (s : State) : Prop extends Lets c q r k s where
  write : q.write = true

/-- Command `c` completes with STATUS OK and RDATA 0 on the register target port, in a state of which `P` holds (Table 2-7). -/
def WritesOk (c : Instr) (s : State) (P : State → Prop) : Prop := ∃ t, exec c s = .next t ∧ rtpOut 0 .ok ∈ t.out ∧ P t

/-- The class-S flag that a row of STATUS_FLAG_CLEAR names (R317). -/
def flagOf (s : State) : FlagReg → Flag
  | .timeStall => stallFlag s
  | .paceShort => shortFlag s
  | .twinTakeover => takeoverFlag s
  | .ctrWrap d k => wrapFlag s (8 * d.val + k.val)

/-- The register that holds the flag. -/
def flagReg : FlagReg → Reg
  | .timeStall => .timeStat
  | .paceShort => .paceStat
  | .twinTakeover => .twin
  | .ctrWrap d k => .ctrVal (8 * d.val + k.val)

/-! ### Intake -/

/-- The handshake has arrived at the DIP's pins, behind those held already. -/
def arrived (dip : Nat) (mv : BitVec 4) (d : BitVec 512) (s : State) : State :=
  s.begin_.setHeldL dip (s.heldL dip ++ [{ mv, d, stalled := false }])

/-! ### The Mending Log -/

/-- The log holds an unacknowledged entry of class `cls` and unit `u`, or had none free and has counted one of the class as lost (R285,
R287). -/
def Noted (cls : BitVec 2) (u : ErrUnit) (s : State) : Prop :=
  (∃ e x, s.logEnt e = some x ∧ x.cls = cls ∧ x.unit = u ∧ x.acked = false ∧ x.form = 0) ∨ s.lostOf cls.toNat ≠ 0

/-! ### Links -/

/-- Word `q` is the `i`-th quarter from the receiver's place on: on the lane and of the round that this place has, its check good (R227). -/
def quarterAt (s : State) (i : Nat) (q : LaneWord) : Bool :=
  let ls := lanesOf s.twin.rxLanes
  let p := s.twin.rxPos + i
  laneOk q.word && decide (fld q.word 0 4 = (1 : BitVec 4)) && decide (ls[p % ls.length]? = some q.lane.toNat) &&
    decide (fld q.word 4 4 = s.twin.rxRound + BitVec.ofNat 4 (p / ls.length))

/-- The receiver stands between two flits with no word waiting on a lane of its set. -/
def between (s : State) : Bool :=
  decide (s.twin.rxFlit = []) && decide (s.twin.rxPos < (lanesOf s.twin.rxLanes).length) && (lanesOf s.twin.rxLanes).all fun n => decide (rxWords s n = [])

/-- The flit that a received row completes, with its link: a Seam-R flit; on Seam-T the next four quarters in their order (R227). -/
def arriving (s : State) : RxFlit → Option (Seam × BitVec 1024)
  | .stream w h => some (.relay (fld h 32 11) (bitAt h 43), w)
  | .lanes a b c d =>
    if between s && quarterAt s 0 a && quarterAt s 1 b && quarterAt s 2 c && quarterAt s 3 d then
      some (.twin, fld d.word 16 256 ++ fld c.word 16 256 ++ fld b.word 16 256 ++ fld a.word 16 256)
    else none

/-- Flit `f` is driven on link `l`: as it is with its header on Seam-R, in four quarters, the low one first, on Seam-T (R44, R227). -/
def Sent (l : Seam) (f : BitVec 1024) (s t : State) : Prop :=
  match l with
  | .relay b _ => Out.stream f (streamHdr s b) ∈ t.out
  | .twin =>
    ∃ ws : List (Nat × BitVec 272), Out.lanes ws ∈ t.out ∧
      ws.map (fun w => (fld w.2 16 256 : BitVec 256)) = [fld f 0 256, fld f 256 256, fld f 512 256, fld f 768 256]

/-- The flit that a link in state `x` makes of a payload: its header acknowledges where that is due and returns the credits owed (R219,
R220). -/
def headed (x : Link) (typ : BitVec 2) (rsp : Bool) (p : BitVec 960) (pre : BitVec 16) : BitVec 1024 :=
  mkFlit (flitHeader typ rsp x.ackDue (if x.ackDue then ackOf x else 0) (crField x.owedReq) (crField x.owedRsp)) p pre

/-- The link after that header has left. -/
def headerSent (x : Link) : Link :=
  { x with owedReq := x.owedReq - 255, owedRsp := x.owedRsp - 255, ackDue := false, sinceAck := if x.ackDue then 0 else x.sinceAck,
           ackSent := if x.ackDue then ackOf x else x.ackSent }

/-- The link at the start of a retrain (R223). -/
def retrained (x : Link) : Link := { x with st := .retrain, trained := false, resume := false, bad := 0, due := false, proving := false, ackSent := ackOf x }

/-! ### Pairing -/

/-- The state in which Twifomon has taken its next message of a VC of Seam-T. -/
def tookFw (rsp : Bool) (s : State) : State := takeFw rsp s.begin_

/-- In `t` the block has answered NO with `reason` to the PREPARE of `epoch` (R179), having taken it in `s`. -/
def VotedNo (epoch : BitVec 16) (reason : Byte) (s t : State) : Prop :=
  t = voteNo epoch reason (tookFw false s)

/-! ### Tacks -/

/-- What every step keeps of the Tacks (R296, R297): the table lists each of the 1,024 once, in rising order, and none that is as at cold
start; only a HELD Tack runs a lease. -/
def TackInv (s : State) : Prop :=
  Tbl.wf tackD s.tack ∧ (∀ p ∈ s.tack, p.1 < 1024) ∧ ∀ n, (s.tackAt n).st ≠ .held → (s.tackAt n).endAt = none

/-! ### The frame of every command -/

/-- The components that a command may write, whatever the state: what it touches, and what waits and is released with it. -/
def mayWrite : Instr → List Comp
  | .edgeCaught .. | .levelChangeSettled .. =>
    [.out, .stepNo, .intake]
  | .tackLeaseExpiry .. =>
    [.out, .stepNo, .tack]
  | .sliceIdleGate .. | .dipIdleGate .. | .cryIdleRelease | .domainPowerOffAck .. | .aonPowerDown =>
    [.out, .stepNo, .pwr]
  | .testModeSelect .. =>
    [.out, .stepNo, .glb]
  | .ceAutoAck .. | .lostSummary =>
    [.out, .stepNo, .log]
  | .snapshotSend | .smtLnRdyRise .. =>
    [.out, .stepNo, .twin]
  | .soakEnd .. =>
    [.out, .stepNo, .slc, .dlv]
  | .counterSnapshotCapture =>
    [.out, .stepNo, .dlv, .ctr]
  | .portResetNotify .. | .warmResetEntry =>
    [.out, .stepNo, .pwr, .tack]
  | .errorRingCopy =>
    [.out, .stepNo, .dlv, .log]
  | .mbxSlow .. =>
    [.out, .stepNo, .mbx, .log]
  | .trainingTimeout | .mirrorReceived | .dirtyReceived | .tallyCkptReceived =>
    [.out, .stepNo, .twin, .link]
  | .takeoverComplete =>
    [.out, .stepNo, .twin, .log]
  | .inboxRelease .. =>
    [.out, .stepNo, .dlv, .relay]
  | .wiredPresentation .. =>
    [.out, .stepNo, .pwr, .intake, .ctr]
  | .select .. | .arbiterDecision .. | .gatherWindowEnd .. =>
    [.out, .stepNo, .slc, .dlv, .ctr]
  | .relayStageGrant .. =>
    [.out, .stepNo, .slc, .dlv, .relay]
  | .pacerPeriodEnd .. =>
    [.out, .stepNo, .dlv, .ctr, .log]
  | .fwBootReady .. | .fwBootRetry .. =>
    [.out, .stepNo, .freeCtr, .fw, .ctr]
  | .brownOut =>
    [.out, .stepNo, .pwr, .twin, .tack]
  | .darnSend .. | .heartbeatSend | .sessionClose .. | .mirrorSend =>
    [.out, .stepNo, .twin, .link, .ctr]
  | .leaseTake | .leaseRenew =>
    [.out, .stepNo, .freeCtr, .twin, .ctr]
  | .relayDiscard .. =>
    [.out, .stepNo, .relay, .ctr, .log]
  | .folderSliceAnswer .. =>
    [.out, .stepNo, .pwr, .intake, .link, .ctr]
  | .timeStall =>
    [.out, .stepNo, .glb, .slc, .dlv, .log]
  | .mbxArgsTaken .. =>
    [.out, .stepNo, .pwr, .intake, .mbx, .ctr]
  | .flitTransmit .. | .replayTimeout .. | .ackTimer .. | .retrainStart .. | .graceEndRinse .. | .laneDrop .. | .laneAdd ..
  | .sessionOpen .. | .trainingRetry =>
    [.out, .stepNo, .twin, .link, .ctr, .log]
  | .bundleReceived .. =>
    [.out, .stepNo, .link, .relay, .ctr, .log]
  | .minuteBoundary =>
    [.out, .stepNo, .dlv, .twin, .link, .tly, .ctr]
  | .mbxNop .. | .mbxInfo .. | .txnBegin .. | .txnAbort .. | .txnStatus .. | .srcStage .. | .ringStage .. | .gateStage ..
  | .mcastStage .. | .remoteStage .. | .groupStage .. | .srcRead .. | .ringRead .. | .tenStatus .. | .twinStatus ..
  | .relayStatus .. | .spdmMsg .. | .fwStatus .. | .ctrConfig .. | .ctrSnapshot .. =>
    [.out, .stepNo, .freeCtr, .pwr, .intake, .mbx, .ctr]
  | .fwFallback =>
    [.out, .stepNo, .pwr, .intake, .mbx, .fw, .ctr]
  | .tenGranule .. =>
    [.out, .stepNo, .freeCtr, .pwr, .intake, .slc, .mbx, .ctr]
  | .tenShare .. | .tenGrant .. | .tenHandle .. =>
    [.out, .stepNo, .freeCtr, .pwr, .intake, .mbx, .tenant, .ctr]
  | .twinWitness .. =>
    [.out, .stepNo, .freeCtr, .pwr, .intake, .mbx, .twin, .ctr]
  | .relayRoute .. =>
    [.out, .stepNo, .freeCtr, .pwr, .intake, .mbx, .relay, .ctr]
  | .fwStage .. | .fwActivate .. =>
    [.out, .stepNo, .freeCtr, .pwr, .intake, .mbx, .fw, .ctr]
  | .errAck .. | .errLogfailClr .. =>
    [.out, .stepNo, .freeCtr, .pwr, .intake, .mbx, .ctr, .log]
  | .relayPathRetry .. =>
    [.out, .stepNo, .mbx, .twin, .link, .relay, .ctr, .log]
  | .tenColour .. =>
    [.out, .stepNo, .freeCtr, .pwr, .intake, .gates, .mbx, .tenant, .ctr]
  | .twinRewash .. =>
    [.out, .stepNo, .freeCtr, .pwr, .intake, .mbx, .twin, .link, .ctr]
  | .tlyLedger .. =>
    [.out, .stepNo, .freeCtr, .pwr, .intake, .dlv, .mbx, .fw, .tly, .ctr]
  | .pwrTimeout .. =>
    [.out, .stepNo, .freeCtr, .pwr, .slc, .dlv, .gates, .fw, .twin, .tly, .ctr, .log]
  | .timePortValue .. =>
    [.out, .stepNo, .freeCtr, .glb, .slc, .dlv, .gates, .fw, .twin, .relay, .tly, .ctr, .log]
  | .dipHandshake .. =>
    [.out, .stepNo, .freeCtr, .pwr, .intake, .slc, .dlv, .gates, .fw, .twin, .link, .tly, .ctr, .log]
  | .warmDrainComplete .. =>
    [.out, .stepNo, .freeCtr, .pwr, .intake, .slc, .dlv, .gates, .mbx, .twin, .relay, .tly, .ctr, .log]
  | .coreFault .. | .coreWdog =>
    [.out, .stepNo, .freeCtr, .pwr, .intake, .slc, .dlv, .gates, .mbx, .fw, .twin, .tly, .ctr, .log]
  | .readTimeout .. | .scanEntry | .scanStopped | .drainComplete | .mergeEntry .. | .sysFence .. | .srcMask .. | .prfSet ..
  | .relayFence .. | .recScan .. | .recResume .. | .profileChangeComplete | .snapshotReceived | .voteTimeout | .decideAckReceived
  | .leaseLapse | .rewash | .rewashDoneReceived | .bundleAckReceived .. =>
    [.out, .stepNo, .freeCtr, .pwr, .glb, .intake, .slc, .dlv, .mbx, .tenant, .fw, .twin, .link, .relay, .tly, .ctr]
  | .fwActivateReady | .partnerLoss =>
    [.out, .stepNo, .freeCtr, .pwr, .glb, .intake, .slc, .dlv, .gates, .mbx, .tenant, .fw, .twin, .link, .relay, .tly, .ctr]
  | .bundleResendReceived .. | .relayPathFail .. =>
    [.out, .stepNo, .freeCtr, .pwr, .glb, .intake, .slc, .dlv, .mbx, .tenant, .fw, .twin, .link, .relay, .tly, .ctr, .log]
  | .sliceApply .. | .levelQueueEntry .. | .pacerTokenTaken .. | .withdrawSettle .. | .launch .. | .bundleLaunch
  | .wchCompletion .. | .writeTimeout .. | .rchResponse .. | .scanEnd | .scrubWord .. | .errorDetected .. | .fwRestartReady ..
  | .txnCommit .. | .ringQuiesce .. | .tenSeal .. | .tenDestroy .. | .gateUpdate | .flitReceived .. | .retrainFail ..
  | .forwardReceived | .prepareReceived | .voteReceived | .decideReceived | .takeoverEventApply .. | .rewashInfoReceived
  | .rewashEntriesReceived =>
    [.out, .stepNo, .freeCtr, .pwr, .glb, .intake, .slc, .dlv, .gates, .mbx, .tenant, .fw, .twin, .link, .relay, .tly, .ctr, .log]
  | .domainReady .. | .coldStart | .supplyOkRise .. | .captureEntry | .warmResetRelease .. | .mbxGo .. | .lnConsWrite ..
  | .lnRunlvlWrite .. | .lnEoiWrite .. | .tkAcqRead .. | .tkRel .. | .tkBreak .. | .tkLeaseWrite .. | .slcMaskOpGo .. | .gtUpdGo ..
  | .dlvRstgGo .. | .slcSrcGo .. | .slcSrcSelWrite .. | .prfSelWrite .. | .errCoreRestart .. | .errRingBaseWrite ..
  | .consIndexWrite .. | .arbiterConfigWrite .. | .smtLaneCfgWrite .. | .statusFlagClear .. | .counterWrite .. | .registerWrite ..
  | .rtpRead .. =>
    [.out, .stepNo, .freeCtr, .pwr, .glb, .intake, .slc, .dlv, .gates, .mbx, .tenant, .fw, .twin, .link, .relay, .tly, .ctr, .log,
    .tack]

end Sys2Proof.Safety
end

