-- ==== Sys2Proof/Certificates/Slice0/Obligations.lean ====
section
/-! DEFINITION. The statements for the provers. Each docstring cites the rules that the statement rests on. -/

open Sys2Proof Sys2Proof.Machine Sys2Proof.Safety

/-- The query commands of Tables 9-9 to 9-14 answer OK with their results (R166); FW_STATUS shows the active version
and the core restarts of the last 60 s. -/
def Obligations.QueryCommandsAnswer : Prop :=
  ∀ (m : Mbx) (c : Cmd) (s : State),
  (Serves m 0x0000 0 c s → ∃ t, exec (.mbxNop m) s = .next t ∧ Answered m stOk [] s t) ∧
  (Serves m 0x0001 0 c s → ∃ t, exec (.mbxInfo m) s = .next t ∧
    Answered m stOk [s.fw.mbxIf.setWidth 32, s.fw.version, BitVec.ofNat 32 (mbxKey m), (mbxTenant m).setWidth 32] s t) ∧
  (Serves m 0x0201 1 c s → (argDw c 0).toNat < 262144 →
    domOn s (dSlc (sliceOf (BitVec.ofNat 18 (argDw c 0).toNat))) = true →
    ∃ t, exec (.srcRead m) s = .next t ∧ Answered m stOk (srcReadRes (argDw c 0).toNat s) s t) ∧
  (Serves m 0x0211 1 c s → (argDw c 0).toNat < 32768 →
    ∃ t, exec (.ringRead m) s = .next t ∧ Answered m stOk (ringReadRes (argDw c 0).toNat s) s t) ∧
  (Serves m 0x0305 1 c s → (argDw c 0).toNat < 256 →
    ∃ t, exec (.tenStatus m) s = .next t ∧ Answered m stOk (tenStatusRes s (fld (argDw c 0) 0 8)) s t) ∧
  (Serves m 0x0500 0 c s → ∃ t, exec (.twinStatus m) s = .next t ∧
    Answered m stOk [(pairCode s.twin.state).setWidth 32, BitVec.ofNat 32 (lanesUp s), (b1 s.twin.lease).setWidth 32] s t) ∧
  (∀ x, Serves m 0x0103 0 c s → (s.mailbox (mbxKey m)).txn = some x →
    ∃ t, exec (.txnStatus m) s = .next t ∧ Answered m stOk (txnCounts x) s t ∧ (t.mailbox (mbxKey m)).txn = some x) ∧
  (Serves m 0x0812 0 c s → ∃ t, exec (.fwStatus m) s = .next t ∧
    Answered m stOk [s.fw.version, BitVec.ofNat 32 (recentRestarts s).length] s t) ∧
  (Serves m 0x0702 1 c s → ownBlk s ≠ 0x7FF → (argDw c 0).toNat < 2048 →
    ∃ t, exec (.relayStatus m) s = .next t ∧ Answered m stOk ([pathState s (fld (argDw c 0) 0 11), Tbl.get zeroD s.relay.resent (fld (argDw c 0) 0 11).toNat]) s t)

/-- TXN_BEGIN, the six stage commands and TXN_ABORT on the open transaction (R177, R178). -/
def Obligations.TransactionIsOpenedStagedAndAborted : Prop :=
  ∀ (m : Mbx) (c : Cmd) (s : State),
  (Serves m 0x0100 0 c s → (s.mailbox (mbxKey m)).txn = none → (s.mailbox (mbxKey m)).aborted = false →
    ∃ t, exec (.txnBegin m) s = .next t ∧ Answered m stOk [s.glb.epoch.setWidth 32] s t ∧
      (t.mailbox (mbxKey m)).txn = some Txn.empty) ∧
  (Serves m 0x0102 0 c s → (s.mailbox (mbxKey m)).txn.isSome →
    ∃ t, exec (.txnAbort m) s = .next t ∧ Answered m stOk [] s t ∧ (t.mailbox (mbxKey m)).txn = none) ∧
  ∀ p ∈ [(0x0110, Instr.srcStage m), (0x0111, .ringStage m), (0x0112, .gateStage m), (0x0113, .mcastStage m),
      (0x0114, .remoteStage m), (0x0115, .groupStage m)],
    ∀ (items : List Item) (x : Txn), Serves m p.1 1 c s → (p.1 = 0x0114 → ownBlk s ≠ 0x7FF) →
      parseStage p.1 c.args = some items → (s.mailbox (mbxKey m)).txn = some x →
      items.any (itemSealed s (insideOf s m)) = false → items.all (itemOk s (stagerOf m) (items.foldl addItem x)) = true →
      txnFits (items.foldl addItem x) = true →
      ∃ t, exec p.2 s = .next t ∧ Answered m stOk [] s t ∧ (t.mailbox (mbxKey m)).txn = some (items.foldl addItem x)

/-- A stage command stages all of its entries or none (R177). -/
def Obligations.StagingIsAllOrNone : Prop :=
  ∀ (m : Mbx) (c : Cmd) (s : State),
  ∀ p ∈ [(0x0110, Instr.srcStage m), (0x0111, .ringStage m), (0x0112, .gateStage m), (0x0113, .mcastStage m),
      (0x0114, .remoteStage m), (0x0115, .groupStage m)],
    ∀ (items : List Item) (x : Txn), Serves m p.1 1 c s → (p.1 = 0x0114 → ownBlk s ≠ 0x7FF) →
      parseStage p.1 c.args = some items → (s.mailbox (mbxKey m)).txn = some x →
      (items.any (itemSealed s (insideOf s m)) = true →
        ∃ t, exec p.2 s = .next t ∧ Answered m stSealed [] s t ∧ (t.mailbox (mbxKey m)).txn = some x) ∧
      (items.any (itemSealed s (insideOf s m)) = false → items.all (itemOk s (stagerOf m) (items.foldl addItem x)) = false →
        ∃ t, exec p.2 s = .next t ∧ Answered m stBadArg [] s t ∧ (t.mailbox (mbxKey m)).txn = some x) ∧
      (items.any (itemSealed s (insideOf s m)) = false → items.all (itemOk s (stagerOf m) (items.foldl addItem x)) = true →
        txnFits (items.foldl addItem x) = false →
        ∃ t, exec p.2 s = .next t ∧ Answered m stTxnFull [] s t ∧ (t.mailbox (mbxKey m)).txn = some x)

/-- The commands of Table 9-12 that set a tenant record or the owners of granules (R63, R158, R236, R247). -/
def Obligations.TenantCommandsSetTheirRecord : Prop :=
  ∀ (m : Mbx) (c : Cmd) (s : State) (n : BitVec 8),
  (Serves m 0x0300 3 c s → (argDw c 2).toNat = n.toNat → 16 ≤ (argDw c 0).toNat → (argDw c 0).toNat + (argDw c 1).toNat ≤ 4096 →
    retiredTen s n = false → sealedTen s n = false →
    (∀ i < (argDw c 1).toNat, sealedTen s (s.owner ((argDw c 0).toNat + i)) = false ∧
      granuleEnabled s ((argDw c 0).toNat + i) = false ∧
      coveredByOther s n (0x800000 + 8 * ((argDw c 0).toNat + i)) (0x800000 + 8 * ((argDw c 0).toNat + i) + 7) = false) →
    ∃ t, exec (.tenGranule m) s = .next t ∧ Answered m stOk [] s t ∧
      ∀ g, t.owner g = if (argDw c 0).toNat ≤ g ∧ g < (argDw c 0).toNat + (argDw c 1).toNat then n else s.owner g) ∧
  (Serves m 0x0301 2 c s → (argDw c 0).toNat = n.toNat → (argDw c 1).toNat < 256 → n ≠ 0 → retiredTen s n = false →
    colourTaken s n (fld (argDw c 1) 0 8) = false → sealedTen s n = false → (∀ g ∈ [0, 1, 2], regionsOf s g n = []) →
    ∃ t, exec (.tenColour m) s = .next t ∧ Answered m stOk [] s t ∧
      ∀ u, t.tenantR u = if u = n.toNat then { s.tenantR u with colour := fld (argDw c 1) 0 8, coloured := true } else s.tenantR u) ∧
  (Serves m 0x0302 2 c s → (argDw c 0).toNat = n.toNat → n ≠ 0 → guarOfTen s n ≤ (argDw c 1).toNat →
    ∃ t, exec (.tenShare m) s = .next t ∧ Answered m stOk [] s t ∧
      ∀ u, t.tenantR u = if u = n.toNat then { s.tenantR u with share := argDw c 1 } else s.tenantR u) ∧
  (Serves m 0x0303 2 c s → (argDw c 0).toNat = n.toNat → (sealedTen s n = false ∨ bitAt (argDw c 1) 1 = false) →
    ∃ t, exec (.tenGrant m) s = .next t ∧ Answered m stOk [] s t ∧
      ∀ u, t.tenantR u =
        if u = n.toNat then { s.tenantR u with ctrUser := bitAt (argDw c 1) 0, selfCfg := bitAt (argDw c 1) 1 } else s.tenantR u) ∧
  (Serves m 0x0304 2 c s → (argDw c 0).toNat = n.toNat → retiredTen s n = false → handleTaken s n (argDw c 1) = false →
    sealedTen s n = false →
    ∃ t, exec (.tenHandle m) s = .next t ∧ Answered m stOk [] s t ∧
      ∀ u, t.tenantR u = if u = n.toNat then { s.tenantR u with handle := argDw c 1 } else s.tenantR u)

/-- The commands of Tables 9-15 and 9-16 that act at once (R276, R281, R282, R286, R292). -/
def Obligations.TallyCounterAndLogCommandsTakeEffect : Prop :=
  ∀ (m : Mbx) (c : Cmd) (s : State),
  (Serves m 0x0600 4 c s → (argDw c 0).toNat < 256 → fld (arg64 c 1) 0 12 = 0 → (argDw c 3).toNat ≤ 8 → s.tly.final = [] →
    ∃ t, exec (.tlyLedger m) s = .next t ∧ Answered m stOk [] s t ∧
      ∀ n, t.ledgerAt n = if n = (argDw c 0).toNat then
        { base := arg64 c 1, code := BitVec.ofNat 4 (argDw c 3).toNat, cons := 0, prod := 0, en := decide (arg64 c 1 ≠ 0), faulted := false }
        else s.ledgerAt n) ∧
  (Serves m 0x0601 3 c s → (argDw c 0).toNat < 30 → (argDw c 1).toNat < 8 → (argDw c 2).toNat < 256 →
    ∃ t, exec (.ctrConfig m) s = .next t ∧ Answered m stOk [] s t ∧
      ∀ d, t.ctrSel d = if d = (argDw c 0).toNat then setFld (s.ctrSel d) (8 * (argDw c 1).toNat) (fld (argDw c 2) 0 8) else s.ctrSel d) ∧
  (Serves m 0x0602 3 c s → fld (arg64 c 0) 0 12 = 0 →
    ∃ t, exec (.ctrSnapshot m) s = .next t ∧ Answered m stOk [] s t ∧ t.ctr.snapAddr = arg64 c 0 ∧ t.ctr.snapInt = argDw c 2 ∧
      t.ctr.snapSeq = 0 ∧ t.ctr.snapStopped = decide (argDw c 2 = 0)) ∧
  (∀ (clean : Bool) (syn : Byte) (e : Fin 64) (x : LogEnt), Serves m 0x0902 1 c s → (argDw c 0).toNat < 64 →
    s.logEnt (argDw c 0).toNat = some x →
    ∃ t, exec (.errAck m clean syn e) s = .next t ∧ Answered m stOk [] s t ∧
      (errRingOn s = true → ∃ y, t.logEnt (argDw c 0).toNat = some y ∧ y.acked = true ∧ y.kind = x.kind ∧ y.unit = x.unit) ∧
      (errRingOn s = false → x.acked = false → (∀ k, s.lostOf k = 0) → t.logEnt (argDw c 0).toNat = none) ∧
      ((∀ k, s.lostOf k = 0) → ∀ j, j ≠ (argDw c 0).toNat → t.logEnt j = s.logEnt j)) ∧
  (∀ (clean : Bool) (syn : Byte) (e : Fin 64), Serves m 0x0903 1 c s → s.log.bypass = false →
    ∃ t, exec (.errLogfailClr m clean syn e) s = .next t ∧ Answered m stOk [] s t ∧
      ∀ n, t.logfail n = if n < 4 ∧ bitAt (argDw c 0) n = true then 0 else s.logfail n)

/-- Commands whose answer waits (R62, R110, R119, R121, R145, R191, R196): the state before the waits that can end are
ended, and the answer where there is nothing to wait for. -/
def Obligations.WaitingCommandsStartTheirWork : Prop :=
  ∀ (m : Mbx) (c : Cmd) (s : State),
  (Serves m 0x0120 0 c s →
    (∃ u, exec (.sysFence m) s = .next (settleMbx u) ∧
      (u.mailbox (mbxKey m)).busy = .fence (markers 17 (flushAll s.begin_)) ∧ ∀ q, u.queue q = (flushAll s.begin_).queue q) ∧
    (NothingElseWaits m s → (∀ q, (flushAll s.begin_).queue q = []) →
      ∃ t, exec (.sysFence m) s = .next t ∧ Answered m stOk [s.glb.epoch.setWidth 32] s t)) ∧
  (Serves m 0x0200 1 c s → domOn s (dSlc (sliceOf (fld (argDw c 0) 0 18))) = true → (s.dyn (fld (argDw c 0) 0 18).toNat).st ≠ .quarantined →
    (∃ u, exec (.srcMask m) s = .next (settleMbx u) ∧ (u.mailbox (mbxKey m)).busy = .mask (fld (argDw c 0) 0 18) (isPaired s) ∧
      u.main (fld (argDw c 0) 0 18).toNat = srcSetMask (s.main (fld (argDw c 0) 0 18).toNat) (bitAt (argDw c 0) 31)) ∧
    (NothingElseWaits m s → isPaired s = false →
      ((maskOp (fld (argDw c 0) 0 18).toNat (bitAt (argDw c 0) 31) s.begin_).dyn (fld (argDw c 0) 0 18).toNat).withdraw = none →
      ∃ t, exec (.srcMask m) s = .next t ∧ Answered m stOk [] s t)) ∧
  (Serves m 0x0210 1 c s → (argDw c 0).toNat < 32768 →
    (∃ u, exec (.ringQuiesce m) s = .next (afterDlv u) ∧ (u.mailbox (mbxKey m)).busy = .quiesce (BitVec.ofNat 15 (argDw c 0).toNat) ∧
      (u.half (argDw c 0).toNat).quiesced = true) ∧
    (NothingElseWaits m s → (∀ d, s.heldL d = []) → s.intake.fences = [] → ungranted s = [] →
      (∀ ch r qs n ep ent, Grant.recs r qs n true ep ent ∉ s.grants ch) → (∀ k, residueOn s k (argDw c 0).toNat = []) →
      halfDrained s (argDw c 0).toNat = true →
      ∃ t, exec (.ringQuiesce m) s = .next t ∧ Answered m stOk [] s t ∧ (t.half (argDw c 0).toNat).quiesced = true)) ∧
  (Serves m 0x0400 1 c s → (argDw c 0).toNat < 4 → admission s Txn.empty (ceilOf s (fld (argDw c 0) 0 2)) = true →
    (∃ u, exec (.prfSet m) s = .next (settleMbx u) ∧ (u.mailbox (mbxKey m)).busy = .profile ∧ u.glb.prfReq = fld (argDw c 0) 0 2) ∧
    (NothingElseWaits m s → s.glb.prfBusy = false → s.glb.prfActive = fld (argDw c 0) 0 2 →
      ∃ t, exec (.prfSet m) s = .next t ∧ Answered m stOk [prfDone (fld (argDw c 0) 0 2)] s t)) ∧
  (Serves m 0x0900 0 c s →
    (∃ u, exec (.recScan m) s = .next (settleMbx u) ∧ (u.mailbox (mbxKey m)).busy = .scan ∧ u.glb.recovery = true) ∧
    (NothingElseWaits m s → s.glb.stopped = true →
      ∃ t, exec (.recScan m) s = .next t ∧ Answered m stOk [lo32 (scanWord (s.upGlb fun g => { g with recovery := true }))] s t ∧
        t.glb.recovery = true)) ∧
  (Serves m 0x0901 2 c s → s.glb.recovery = true → ((argDw c 1).toNat = 0 ∨ (argDw c 0).toNat + (argDw c 1).toNat ≤ 4096) →
    (∃ u, exec (.recResume m) s = .next (settleMbx u) ∧
      (u.mailbox (mbxKey m)).busy = .resume (argDw c 0).toNat (argDw c 1).toNat) ∧
    (NothingElseWaits m s → s.glb.stopped = true → (s.glb.capture = true ∨ s.glb.test = true) →
      ∃ t, exec (.recResume m) s = .next t ∧ Answered m stOk [s.glb.scanSeq.setWidth 32] s t ∧ t.glb.recovery = false))

/-- Step 3 and the first checks of step 4 of Table 9-7 (R166, R168, R172). The checks of step 4 of Table 9-7 that
every command shares (R173, R174). -/
def Obligations.ArgumentsAreCopiedAndChecked : Prop :=
  (∀ (m : Mbx) (s : State), Up s → (s.mailbox (mbxKey m)).busy = .go → fwReady s = true →
  ∃ t, exec (.mbxArgsTaken m) s = .next t ∧
    (issuerOf (s.mailbox (mbxKey m)).opcode.toNat = none →
      (t.mailbox (mbxKey m)).rspSeq = (s.mailbox (mbxKey m)).seq ∧ (t.mailbox (mbxKey m)).status = stNotSupported) ∧
    (issuerOf (s.mailbox (mbxKey m)).opcode.toNat ≠ none → mayIssue s m (copyCmd (s.mailbox (mbxKey m))) = false →
      (t.mailbox (mbxKey m)).rspSeq = (s.mailbox (mbxKey m)).seq ∧ (t.mailbox (mbxKey m)).status = stDenied) ∧
    (issuerOf (s.mailbox (mbxKey m)).opcode.toNat ≠ none → mayIssue s m (copyCmd (s.mailbox (mbxKey m))) = true →
      ∀ j, (s.mailbox (mbxKey m)).journal = some j → j.opcode = (s.mailbox (mbxKey m)).opcode → j.seq = (s.mailbox (mbxKey m)).seq →
        (t.mailbox (mbxKey m)).rspSeq = (s.mailbox (mbxKey m)).seq ∧ (t.mailbox (mbxKey m)).status = j.status ∧
          (t.mailbox (mbxKey m)).res.take j.res.length = j.res ∧ (t.mailbox (mbxKey m)).replay = true) ∧
    (issuerOf (s.mailbox (mbxKey m)).opcode.toNat ≠ none → mayIssue s m (copyCmd (s.mailbox (mbxKey m))) = true →
      (∀ j, (s.mailbox (mbxKey m)).journal = some j → j.opcode ≠ (s.mailbox (mbxKey m)).opcode ∨ j.seq ≠ (s.mailbox (mbxKey m)).seq) →
        (t.mailbox (mbxKey m)).cmd = some (copyCmd (s.mailbox (mbxKey m))) ∧ (t.mailbox (mbxKey m)).busy = .taken)) ∧
  (∀ (m : Mbx) (c : Cmd) (s : State) (q : SpdmReq) (img : FwImage) (clean : Bool) (syn : Byte) (e : Fin 64),
  ∀ p ∈ [(0x0000, 0, Instr.mbxNop m), (0x0001, 0, .mbxInfo m), (0x0100, 0, .txnBegin m), (0x0101, 0, .txnCommit m),
      (0x0102, 0, .txnAbort m), (0x0103, 0, .txnStatus m), (0x0110, 1, .srcStage m), (0x0111, 1, .ringStage m),
      (0x0112, 1, .gateStage m), (0x0113, 1, .mcastStage m), (0x0114, 1, .remoteStage m), (0x0115, 1, .groupStage m),
      (0x0120, 0, .sysFence m), (0x0200, 1, .srcMask m), (0x0201, 1, .srcRead m), (0x0210, 1, .ringQuiesce m),
      (0x0211, 1, .ringRead m), (0x0300, 3, .tenGranule m), (0x0301, 2, .tenColour m), (0x0302, 2, .tenShare m),
      (0x0303, 2, .tenGrant m), (0x0304, 2, .tenHandle m), (0x0305, 1, .tenStatus m), (0x0310, 0, .tenSeal m),
      (0x0311, 1, .tenDestroy m), (0x0400, 1, .prfSet m), (0x0500, 0, .twinStatus m), (0x0501, 2, .twinWitness m),
      (0x0502, 0, .twinRewash m), (0x0600, 4, .tlyLedger m), (0x0601, 3, .ctrConfig m), (0x0602, 3, .ctrSnapshot m),
      (0x0700, 2, .relayRoute m), (0x0701, 1, .relayFence m), (0x0702, 1, .relayStatus m), (0x0800, 0, .spdmMsg m q),
      (0x0810, 3, .fwStage m img), (0x0811, 0, .fwActivate m), (0x0812, 0, .fwStatus m), (0x0900, 0, .recScan m),
      (0x0901, 2, .recResume m), (0x0902, 1, .errAck m clean syn e), (0x0903, 1, .errLogfailClr m clean syn e)],
    Up s → (s.mailbox (mbxKey m)).cmd.isSome → taken s m p.1 = some c →
    (p.1 = 0x0114 ∨ p.1 = 0x0700 ∨ p.1 = 0x0701 ∨ p.1 = 0x0702 → ownBlk s ≠ 0x7FF) →
    (p.1 = 0x0800 → (s.mailbox (mbxKey m)).secured = none) →
    (1024 < c.argLen ∨ c.args.length < p.2.1 →
      ∃ t, exec p.2.2 s = .next t ∧ Answered m stBadArg [] s t ∧ Only [.out, .stepNo, .freeCtr, .pwr, .intake, .mbx, .ctr] s t) ∧
    (c.argLen ≤ 1024 → p.2.1 ≤ c.args.length → sealedNamed s m c = true →
      ∃ t, exec p.2.2 s = .next t ∧ Answered m stSealed [] s t ∧ Only [.out, .stepNo, .freeCtr, .pwr, .intake, .mbx, .ctr] s t))

/-- Table 10-2 on a block that asks nobody (R159, R182, R183, R206). -/
def Obligations.CommitAloneFlipsAtOnce : Prop :=
  ∀ (m : Mbx) (c : Cmd) (s : State) (x : Txn), Serves m 0x0101 0 c s → (s.mailbox (mbxKey m)).txn = some x →
  s.twin.state = .solo → needsNobody s = true → s.fw.commit = none → s.fw.prepared = none →
  s.glb.draining = false → s.glb.merging = false → admission s x (ceilNow s) = true → recheck s (stagerOf m) x = true →
  (x.regions.map Prod.fst).Pairwise (· < ·) → (changesDip x = true → dipAsleep s = false) →
  ∃ u, exec (.txnCommit m) s = .next (afterDlv u) ∧ u.glb.epoch = s.glb.epoch + 1 ∧ u.glb.draining = true ∧
    u.glb.merging = decide (x.srcs ≠ []) ∧ (∀ p ∈ x.regions, u.region p.1 = p.2) ∧
    (∀ k, k ∉ x.regions.map Prod.fst → u.region k = s.region k) ∧ (u.mailbox (mbxKey m)).txn = none ∧
    Answered m stOk [(s.glb.epoch + 1).setWidth 32, BitVec.ofNat 32 x.srcs.length] s u

/-- TXN_COMMIT on a pair, and its refusals (R178–R180, Table 10-2). -/
def Obligations.CommitOfAPairPrepares : Prop :=
  ∀ (m : Mbx) (c : Cmd) (s : State), Serves m 0x0101 0 c s →
  ((s.mailbox (mbxKey m)).txn = none → ∃ t, exec (.txnCommit m) s = .next t ∧
    Answered m (if (s.mailbox (mbxKey m)).aborted then stAborted else stNoTxn) [] s t) ∧
  ∀ x, (s.mailbox (mbxKey m)).txn = some x →
    ((s.glb.draining = true ∨ s.glb.merging = true) →
      ∃ t, exec (.txnCommit m) s = .next t ∧ Answered m stBusyMerging [] s t ∧ t.glb.epoch = s.glb.epoch) ∧
    (s.glb.draining = false → s.glb.merging = false →
      (s.fw.commit.isSome ∨ (s.fw.prepared = none ∧ changesDip x = true ∧ dipAsleep s = true)) →
      ∃ t, exec (.txnCommit m) s = .next t ∧ (t.mailbox (mbxKey m)).busy = .commitWait ∧ (t.mailbox (mbxKey m)).txn = some x ∧
        t.glb.epoch = s.glb.epoch) ∧
    (s.glb.draining = false → s.glb.merging = false → s.fw.commit = none → s.fw.prepared = none →
      (changesDip x = true → dipAsleep s = false) →
      (s.twin.state = .training ∨ s.twin.state = .alone →
        ∃ t, exec (.txnCommit m) s = .next t ∧ Answered m stTwin [] s t ∧ t.glb.epoch = s.glb.epoch) ∧
      (s.twin.state = .rewash → ∃ t, exec (.txnCommit m) s = .next t ∧ Answered m stBusy [] s t ∧ t.glb.epoch = s.glb.epoch) ∧
      ((s.twin.state = .paired ∨ s.twin.state = .degraded) → (∀ h, s.twin.partner = some h → h.fwHalted = false) →
        (admission s x (ceilNow s) = false →
          ∃ t, exec (.txnCommit m) s = .next t ∧ Answered m stAdmission [] s t ∧ t.glb.epoch = s.glb.epoch) ∧
        (admission s x (ceilNow s) = true → recheck s (stagerOf m) x = true →
          ∃ t r, exec (.txnCommit m) s = .next t ∧ t.fw.commit = some r ∧ r.mbx = m ∧ r.what = .txn x ∧
            r.epoch = s.glb.epoch + 1 ∧ r.stage = .vote ∧ (t.mailbox (mbxKey m)).busy = .commit ∧ t.glb.epoch = s.glb.epoch)))

/-- Tables 14-2 and 14-8 up to the wait for the drain (R250, R262). -/
def Obligations.SealAndDestroyStart : Prop :=
  ∀ (m : Mbx) (c : Cmd) (s : State) (n : BitVec 8),
  (Serves m 0x0310 0 c s → mbxTenant m = n → n ≠ 0 → inSession s m = true → sealedTen s n = false → s.twin.state ≠ .rewash →
    activating s = false → tenBusy s n = false → (s.tenantR n.toNat).coloured = true → keyHeld s n = false → commitHolds s n = false →
    ∃ u, exec (.tenSeal m) s = .next (afterDlv u) ∧ (u.mailbox (mbxKey m)).busy = .seal ∧ u.tenant = s.tenant) ∧
  (Serves m 0x0311 1 c s → (argDw c 0).toNat = n.toNat → n ≠ 0 → s.twin.state ≠ .rewash → activating s = false →
    tenBusy s n = false → keyHeld s n = false → commitHolds s n = false → (tenDips s n = true → dipAsleep s = false) →
    ∃ u, exec (.tenDestroy m) s = .next (afterDlv u) ∧ (u.mailbox (mbxKey m)).busy = .destroy n ∧
      ∀ k, u.region k = if k ∈ s.gates.region.map Prod.fst ∧ regTen (s.region k) = n then regZero else s.region k)

/-- SPDM_MSG (R252, R258, R259, R261). Message codes and layouts are presumed from the SPDM standard (log entry 133);
bytes that a secret or chance gives are free values (log entry 9). -/
def Obligations.SpdmMessagesAreAnswered : Prop :=
  ∀ (m : Mbx) (c : Cmd) (s : State) (q : SpdmReq), Serves m 0x0800 0 c s → (s.mailbox (mbxKey m)).secured = none → c.argLen ≠ 0 →
  (needsCry (spdmRequest (s.mailbox (mbxKey m)) c q) = true → domOn s dCry = true) →
  ((∀ op l, spdmRequest (s.mailbox (mbxKey m)) c q ≠ some (.secured op l)) →
    ∃ t, exec (.spdmMsg m q) s = .next t ∧ (t.mailbox (mbxKey m)).rspSeq = (s.mailbox (mbxKey m)).seq ∧
      (t.mailbox (mbxKey m)).status = stOk ∧
      (msgByte c 0 = 0x12 →
        (spdmRequest (s.mailbox (mbxKey m)) c q = some .getDigests → Said m digestsRsp t) ∧
        (spdmRequest (s.mailbox (mbxKey m)) c q = some .getCertificate → Said m (certificateRsp c) t) ∧
        (spdmRequest (s.mailbox (mbxKey m)) c q = some .getMeasurements → ∀ bs, measWanted s (msgByte c 3) = some bs →
          ∃ pre post, Said m (pre ++ bs.flatten ++ post) t ∧ pre.length = 8) ∧
        (spdmRequest (s.mailbox (mbxKey m)) c q = some .other → Said m (spdmError errUnsupportedRequest (msgByte c 1)) t) ∧
        (spdmRequest (s.mailbox (mbxKey m)) c q = some .keyExchange →
          (sealedMbx s m = true → Said m (spdmError errSessionLimitExceeded 0) t ∧
            (t.mailbox (mbxKey m)).session = (s.mailbox (mbxKey m)).session) ∧
          (sealedMbx s m = false → (t.mailbox (mbxKey m)).session = none ∧ (t.mailbox (mbxKey m)).handshake = true))) ∧
      (spdmRequest (s.mailbox (mbxKey m)) c q = some .finish →
        (t.mailbox (mbxKey m)).session.isSome ∧ (t.mailbox (mbxKey m)).handshake = false ∧ (t.mailbox (mbxKey m)).seqIn = 0 ∧
          (t.mailbox (mbxKey m)).seqOut = 0)) ∧
  (∀ op l, spdmRequest (s.mailbox (mbxKey m)) c q = some (.secured op l) → (issuerOf op.toNat).isSome → op ≠ 0x0800 →
    mayIssue (s.setMailbox (mbxKey m) { s.mailbox (mbxKey m) with secured := some (innerCmd op l) }) m (innerCmd op l) = true →
    ∃ t, exec (.spdmMsg m q) s = .next t ∧ (t.mailbox (mbxKey m)).secured = some (innerCmd op l) ∧
      (t.mailbox (mbxKey m)).busy = .taken ∧ (t.mailbox (mbxKey m)).seqIn = (s.mailbox (mbxKey m)).seqIn + 1)

/-- FW_STAGE, FW_ACTIVATE and the two ends of an exchange (R260, R264–R266, Table 14-9). -/
def Obligations.FirmwareImagesAreStagedAndExchanged : Prop :=
  ∀ (m : Mbx) (c : Cmd) (s : State) (i : FwImage),
  (Serves m 0x0810 3 c s → stageBusy s = false → imageRefused c = false → imageBad s i = false →
    ∃ t, exec (.fwStage m i) s = .next t ∧ Answered m stOk (dwsOf i.digest 12) s t ∧ t.fw.staged = some i ∧ t.fw.stagedOk = true ∧
      (∀ g, findRdTag s 256 (Config.readTag s.freeCtr) = some g → ∀ n < 16 * (argDw c 2).toNat,
        readOut (arg64 c 0 + BitVec.ofNat 64 (64 * n)) false g 0 0 ∈ t.out)) ∧
  (Serves m 0x0811 0 c s → s.twin.state ≠ .rewash → anyTenBusy s = false → s.fw.staged = some i → s.fw.stagedOk = true →
    commitOpen s = false →
    ∃ t, exec (.fwActivate m) s = .next t ∧ t.fw.phase = .exchanging ∧ t.fw.activateMbx = some m ∧
      t.fw.fallback = some (activeImage s) ∧ t.fw.staged = some i ∧ t.fw.chain = extend (extend s.fw.chain i.digest) i.manifest ∧
      t.fw.extends_ = s.fw.extends_ + 2) ∧
  (Up s → s.fw.activateMbx = some m → s.fw.staged = some i → s.fw.phase = .exchanging → powered s = true →
    (s.mailbox (mbxKey m)).cmd.isSome →
    (∃ u, exec .fwActivateReady s = .next (fwUp u) ∧ Answered m stOk [i.version] s u ∧ u.fw.phase = .ready ∧
      u.fw.version = i.version ∧ u.fw.svn = i.svn ∧ u.fw.image = i.digest ∧ u.fw.staged = none ∧
      u.fw.exchanges = s.fw.exchanges + 1)) ∧
  (∀ f, Up s → s.fw.fallback = some f → s.fw.phase = .exchanging → powered s = true →
    ∃ t, exec .fwFallback s = .next t ∧ t.fw.phase = .restarting ∧ t.fw.stagedOk = false ∧ t.fw.activateMbx = none ∧
      t.fw.exchanges = s.fw.exchanges + 1)

/-- TWIN_WITNESS, TWIN_REWASH, RELAY_ROUTE and RELAY_FENCE with their checks passed (R204, R207, R237, R242). -/
def Obligations.TwinAndRelayCommandsTakeEffect : Prop :=
  ∀ (m : Mbx) (c : Cmd) (s : State) (b : BitVec 11),
  (Serves m 0x0501 2 c s → fld (arg64 c 0) 0 6 = 0 → s.twin.state = .paired →
    (findRdTag s 256 (Config.readTag s.freeCtr)).isSome →
    ∃ t g, exec (.twinWitness m) s = .next t ∧ t.out = [readOut (arg64 c 0) false g 0 0] ∧
      (t.mailbox (mbxKey m)).busy = .witness (arg64 c 0) none ∧ s.rdOf g.toNat = none ∧
      t.rdOf g.toNat = some { what := .witness m (arg64 c 0), time := s.glb.now }) ∧
  (∀ h, Serves m 0x0502 0 c s → (s.twin.state = .paired ∨ s.twin.state = .degraded) → s.fw.commit = none → s.fw.prepared = none →
    twinUp s = true → s.twin.partner = some h → h.fwHalted = false →
    ∃ t, exec (.twinRewash m) s = .next t ∧ t.twin.state = .rewash ∧ (t.mailbox (mbxKey m)).busy = .rewash) ∧
  (Serves m 0x0700 2 c s → ownBlk s ≠ 0x7FF → (argDw c 0).toNat = b.toNat → b ≠ ownBlk s → b ≠ 0x7FF →
    ∃ t, exec (.relayRoute m) s = .next t ∧ Answered m stOk [] s t ∧
      routeOf t b = some (fld (argDw c 1) 0 16, fld (argDw c 1) 16 3) ∧ ∀ d, d ≠ b → routeOf t d = routeOf s d) ∧
  (Serves m 0x0701 1 c s → ownBlk s ≠ 0x7FF → (argDw c 0).toNat = b.toNat →
    (∃ u, exec (.relayFence m) s = .next (settleMbx u) ∧
      (u.mailbox (mbxKey m)).busy = .relayFence b ((s.relay.bundles.filter fun x => x.blk = b).map fun x => (x.bseq, x.strap))) ∧
    (NothingElseWaits m s → (∀ x ∈ s.relay.bundles, x.blk ≠ b) →
      ∃ t, exec (.relayFence m) s = .next t ∧ Answered m stOk [] s t))

/-- The offsets and fields of the port rows (R32, R314, file 18). -/
def Obligations.PortRowsReachTheirRegister : Prop :=
  ∀ (s : State) (rq : Rq) (a : Acc) (d : BitVec 64),
  (∀ (c : Instr) (r : Reg), (c, r) ∈ [(Instr.slcSrcSelWrite a d rq, Reg.srcSel), (.prfSelWrite a d rq, .prfSel), (.errRingBaseWrite a d rq, .errBase),
      (.consIndexWrite .errRing a d rq, .errCons), (.arbiterConfigWrite .lvlMap a d rq, .lvlMap), (.arbiterConfigWrite .arbCfg a d rq, .arbCfg),
      (.smtLaneCfgWrite a d rq, .laneCfg)] →
    ∃ q, portRequest s c = some q ∧ regAt (rtpWord q) = some r ∧ rtpAligned q = true ∧ rtpAcc q = a ∧ q.write = true ∧ q.data = d ∧ q.rq = rq) ∧
  (∀ (n : BitVec 15) (c : Instr) (r : Reg), (c, r) ∈ [(Instr.lnConsWrite n a d rq, Reg.lnCons n.toNat), (.lnRunlvlWrite n a d rq, .lnRunlvl n.toNat),
      (.lnEoiWrite n a d rq, .lnEoi n.toNat)] →
    ∃ q, portRequest s c = some q ∧ regAt (rtpWord q) = some r ∧ rtpAligned q = true ∧ rtpAcc q = a ∧ q.write = true ∧ q.data = d ∧ q.rq = rq) ∧
  (∀ (n : Fin 1024), ∃ q1 q2 q3 q4, portRequest s (.tkAcqRead n a rq) = some q1 ∧ portRequest s (.tkRel n rq) = some q2 ∧
    portRequest s (.tkBreak n rq) = some q3 ∧ portRequest s (.tkLeaseWrite n a d rq) = some q4 ∧
    (∀ q ∈ [q1, q2, q3, q4], rtpAligned q = true ∧ q.rq = rq) ∧ q1.write = false ∧ q2.write = true ∧ q3.write = true ∧ q4.write = true ∧
    rtpAcc q1 = a ∧ rtpAcc q4 = a ∧ q2.data = 1 ∧ q3.data = 2 ∧ q4.data = d ∧
    regAt (rtpWord q1) = some (.tkAcq n.val) ∧ regAt (rtpWord q2) = some (.tkRel n.val) ∧ regAt (rtpWord q3) = some (.tkRel n.val) ∧
    regAt (rtpWord q4) = some (.tkLease n.val)) ∧
  (∀ (m : Mbx), ∃ q, portRequest s (.mbxGo m d rq) = some q ∧ regAt (rtpWord q) = some (.mbxCmd m) ∧ rtpAligned q = true ∧ rtpAcc q = .w8 ∧
    q.write = true ∧ bitAt q.data 63 = true ∧ (∀ i < 63, bitAt q.data i = bitAt d i) ∧ q.rq = rq) ∧
  (∀ (src : BitVec 18) (v : Bool) (c : Instr) (r : Reg), (c, r) ∈ [(Instr.slcMaskOpGo src v rq, Reg.maskOp), (.gtUpdGo rq, .gtUpd),
      (.dlvRstgGo rq, .rstgCtl), (.slcSrcGo rq, .srcCtl), (.errCoreRestart rq, .coreCtl)] →
    ∃ q, portRequest s c = some q ∧ regAt (rtpWord q) = some r ∧ rtpAligned q = true ∧ rtpAcc q = .w8 ∧ q.write = true ∧ q.rq = rq ∧
      (r = .maskOp → fld q.data 0 18 = src ∧ bitAt q.data 18 = v ∧ bitAt q.data 63 = true) ∧ (r ≠ .maskOp → q.data = 1)) ∧
  (∀ (t : BitVec 8), ∃ q, portRequest s (.consIndexWrite (.ledger t) a d rq) = some q ∧ regAt (rtpWord q) = some (.lcons t.toNat) ∧
    rtpAligned q = true ∧ rtpAcc q = a ∧ q.write = true ∧ q.data = d ∧ q.rq = rq) ∧
  (∀ (f : FlagReg) (tag : BitVec 4), ∃ q, portRequest s (.statusFlagClear f tag rq) = some q ∧ rtpAligned q = true ∧ q.write = true ∧ q.rq = rq ∧
    regAt (rtpWord q) = some (flagReg f)) ∧
  (∀ (o : BitVec 26), o.toNat % 8 = 0 → ∃ q, portRequest s (.counterWrite o a d rq) = some q ∧ rtpWord q = o.toNat ∧ rtpAligned q = true ∧
    rtpAcc q = a ∧ q.write = true ∧ q.data = d ∧ q.rq = rq) ∧
  (∀ (w : BitVec 128) (p : BitVec 8) (q : RtpReq), portRequest s (.registerWrite w p) = some q ∨ portRequest s (.rtpRead w p) = some q →
    q.offset = fld w 0 26 ∧ q.write = bitAt w 26 ∧ q.size8 = bitAt w 27 ∧ q.data = fld w 32 64 ∧ q.rq.reqid = fld w 96 16 ∧
    q.rq.port = fld w 112 8 ∧ q.rq.colour = fld w 120 8)

/-- Accesses that the port refuses or holds (R32, R90, R94, R96, R103, R251, R313, R315). -/
def Obligations.RefusedAccessesAreAnswered : Prop :=
  ∀ (c : Instr) (q : RtpReq) (s : State), portRequest s c = some q → Up s →
  ((accepting s = false ∨ s.gates.rtpHeld ≠ []) →
    ∃ t, exec c s = .next t ∧ t.out = [] ∧ Only [.out, .stepNo, .gates] s t ∧ t.gates = { s.gates with rtpHeld := s.gates.rtpHeld ++ [q] }) ∧
  (accepting s = true → s.gates.rtpHeld = [] →
  (q.rq.parityOk = false → ∃ t, exec c s = .next t ∧ rtpOut 0 .parity ∈ t.out ∧
    Only [.out, .stepNo, .freeCtr, .slc, .dlv, .gates, .fw, .twin, .tly, .ctr, .log] s t) ∧
  (q.rq.parityOk = true → rtpAligned q = false → ∃ t, exec c s = .next t ∧ t.out = [rtpOut 0 .fault] ∧ Only [.out, .stepNo, .gates, .tly, .ctr, .log] s t ∧
    t.violLast (tenantOfColour s q.rq.colour).toNat = violWords (rtpViol q vAlign none) (tenantOfColour s q.rq.colour) s.glb.now) ∧
  (q.rq.parityOk = true → rtpAligned q = true → regAt (rtpWord q) = none →
    (q.write = true → ∃ t, exec c s = .next t ∧ t.out = [rtpOut 0 .fault] ∧ Only [.out, .stepNo, .gates, .tly, .ctr, .log] s t ∧
      t.violLast (tenantOfColour s q.rq.colour).toNat = violWords (rtpViol q vRsvdWrite none) (tenantOfColour s q.rq.colour) s.glb.now) ∧
    (q.write = false → ∃ t, exec c s = .next t ∧ t.out = [rtpOut 0 .ok] ∧ Only [.out, .stepNo, .ctr] s t)) ∧
  (∀ r, q.rq.parityOk = true → rtpAligned q = true → regAt (rtpWord q) = some r → (q.write = true ∨ 0x1000 ≤ q.offset.toNat) →
    (∀ kind reg, rtpDecide s q = .fault kind reg → ∃ t, exec c s = .next t ∧ t.out = [rtpOut 0 .fault] ∧
      Only [.out, .stepNo, .gates, .tly, .ctr, .log] s t ∧
      t.violLast (tenantOfColour s q.rq.colour).toNat = violWords (rtpViol q kind reg) (tenantOfColour s q.rq.colour) s.glb.now) ∧
    (∀ k, rtpDecide s q = .lets k → (sealedTarget s (regTen (s.region k)) r = true ∨ expertSealed s q r = true) →
      ∃ t, exec c s = .next t ∧ t.out = [rtpOut 0 .fault] ∧ Only [.out, .stepNo, .gates, .tly, .ctr, .log] s t ∧
        t.violLast 0 = violWords { rtpViol q vSealed none with addr := 0 } 0 s.glb.now)) ∧
  (∀ r k, Passes c q r k s → (q.write = true ∨ 0x1000 ≤ q.offset.toNat) → ∀ n ∈ gatedOf s (needsSlices s q r), n < 8 →
    ∃ t, exec c s = .next t ∧ t.out = [] ∧ Only [.out, .stepNo, .pwr, .gates] s t ∧ t.gates = { s.gates with rtpHeld := [q] } ∧
      t.pwr.on = s.pwr.on ∧ (bitAt t.pwr.req (dSlc n) = true ∨ bitAt t.pwr.want (dSlc n) = true)))

/-- Reads of the port (R33, R90, R314); rtpTaken is the model's count of the request in the performance counters
(R281). Writes that are discarded (R4, R313, R314). -/
def Obligations.ReadsAndReadOnlyRegisters : Prop :=
  (∀ (c : Instr) (q : RtpReq) (s : State),
  (∀ r k, Lets c q r k s → q.write = false → (∀ n, r ≠ .tkAcq n) → ∃ t, exec c s = .next t ∧
    t.out = [rtpOut (accRead (rtpAcc q) (readReg (rtpTaken s) (if q.offset.toNat < 0x1000 then 0 else regTen (s.region k)) r)) .ok] ∧
    Only [.out, .stepNo, .ctr] s t ∧ t.ctr.cnt = s.ctr.cnt) ∧
  (∀ r, portRequest s c = some q → Up s → accepting s = true → s.gates.rtpHeld = [] → q.rq.parityOk = true → rtpAligned q = true → q.write = false →
    q.offset.toNat < 0x1000 → regAt (rtpWord q) = some r → ∃ t, exec c s = .next t ∧
      t.out = [rtpOut (accRead (rtpAcc q) (readReg (rtpTaken s) 0 r)) .ok] ∧ Only [.out, .stepNo, .ctr] s t ∧ t.ctr.cnt = s.ctr.cnt) ∧
  (∀ ten r, (∀ i, r ≠ .ctrVal i) → readReg (rtpTaken s) ten r = readReg s ten r)) ∧
  (∀ (c : Instr) (q : RtpReq) (r : Reg) (k : Nat) (s : State), LetsWrite c q r k s →
  ((r ∈ [Reg.glbId, .glbStrap, .fwBase, .boot, .resetR, .pwrStat, .scan, .epoch, .timeNow, .measCnt, .errProd, .errStat, .errSum, .errLost, .linkStat,
      .sessStat, .cryStat] ∨ (∃ n, r ∈ [Reg.meas n, .logfail n, .poolUsed n, .lprod n, .lstat n, .tenStat n, .lnProd n, .lnStat n, .tkAcq n, .tkStat n, .scanWord n]) ∨
      (∃ m, r ∈ [Reg.mbxRsp m, .mbxStat m]) ∨ (∃ m i, r = .mbxRes m i) ∨ (∃ i j, r = .logWord i j ∨ r = .violLast i j)) →
    WritesOk c s (Only [.out, .stepNo, .ctr] s)) ∧
  (rtpAcc q = .hi → (r ∈ [Reg.prfSel, .errCons, .arbCfg, .paceCfg] ∨ (∃ n, r ∈ [Reg.lcons n, .lnCons n, .lnRunlvl n, .lnEoi n, .tkRel n, .tkLease n])) →
    WritesOk c s (Only [.out, .stepNo, .ctr] s)))

/-- R131: acceptance of a written consumer index, and the ARM bit of the same write. -/
def Obligations.ConsumerIndexWrites : Prop :=
  ∀ (c : Instr) (q : RtpReq) (n k : Nat) (s : State), LetsWrite c q (.lnCons n) k s → rtpAcc q ≠ .hi →
  ∃ u, exec c s = .next (rtpAnswer 0 .ok (afterDlv (if bitAt q.data 31 then rearm n u else u))) ∧
    (u.half n).prod = (s.half n).prod ∧ (u.half n).arm = (s.half n).arm ∧ (u.half n).nlvl = (s.half n).nlvl ∧ (u.half n).seq = (s.half n).seq ∧
    (((s.half n).prod - fld q.data 0 31).toNat ≤ halfSize s n →
      (u.half n).cons = fld q.data 0 31 ∧ (u.half n).full = decide (halfSize s n ≤ usedOf u n)) ∧
    (halfSize s n < ((s.half n).prod - fld q.data 0 31).toNat →
      u.half n = s.half n ∧ u.cnt (dlvPage + 0x0B0) = s.cnt (dlvPage + 0x0B0) + 1) ∧
    (∀ m, m ≠ n → (u.half m).cons = (s.half m).cons ∧ (u.half m).prod = (s.half m).prod)

/-- The decision of R132, at a rearm (R119) and at a launch, and LN_RUNLVL. -/
def Obligations.RearmFollowsTheRule : Prop :=
  ∀ (n : Nat) (s : State), n < 32768 →
  (let u := rearm n s
   if (s.half n).prod ≠ (s.half n).cons ∧ healthy s n = true ∧ s.glb.ranking = true then
     ∃ f, u.half n = { s.half n with arm := false, nlvl := some (s.half n).lastLvl, seq := (s.half n).seq + 1, faulted := f }
   else u.half n = { s.half n with arm := true, nlvl := none }) ∧
  (∀ (l x : BitVec 4) (e : RingEnt),
    let u := notifyAtLaunch n l x e s
    let go := ∃ f, u.half n = { s.half n with arm := false, lastLvl := x, nlvl := some l, seq := (s.half n).seq + 1, faulted := f }
    if (s.half n).arm = true then go
    else
      match (s.half n).nlvl with
      | some v => if (16 ≤ (s.half n).runlvl.toNat ∨ (s.half n).runlvl.toNat < l.toNat) ∧ v.toNat < l.toNat then go else u.half n = { s.half n with lastLvl := x }
      | none => u.half n = { s.half n with lastLvl := x }) ∧
  (∀ (c : Instr) (q : RtpReq) (k : Nat), LetsWrite c q (.lnRunlvl n) k s → rtpAcc q ≠ .hi →
    WritesOk c s fun t => Only [.out, .stepNo, .dlv, .ctr] s t ∧
      ∀ m, t.half m = if m = n then { s.half n with runlvl := if 16 < (fld q.data 0 5).toNat then 16 else fld q.data 0 5 } else s.half m)

/-- R107: completion by LN_EOI, stray completions, and the wake of a gated slice. -/
def Obligations.EndOfInterruptCompletes : Prop :=
  ∀ (c : Instr) (q : RtpReq) (r k : Nat) (s : State) (x : BitVec 18), q.write = true → rtpAcc q ≠ .hi → x = fld q.data 0 18 →
  (Lets c q (.lnEoi r) k s → srcTen (srcNow s x.toNat) = ringTen (ringNow s r) →
    ((s.dyn x.toNat).st = .active → ∃ u, exec c s = .next (rtpAnswer 0 .ok (afterDlv u)) ∧
      (u.dyn x.toNat).st = (if srcMode (srcNow s x.toNat) = 1 ∧ (s.dyn x.toNat).line = true then pendState s (srcNow s x.toNat) else .idle)) ∧
    (∀ e, (s.dyn x.toNat).st = .activePending → (s.dyn x.toNat).ev = some e → ∃ u, exec c s = .next (rtpAnswer 0 .ok (afterDlv u)) ∧
      u.dyn x.toNat = { s.dyn x.toNat with st := pendState s (evEntry s x.toNat e) })) ∧
  (Lets c q (.lnEoi r) k s →
    ¬(srcTen (srcNow s x.toNat) = ringTen (ringNow s r) ∧ ((s.dyn x.toNat).st = .active ∨ (s.dyn x.toNat).st = .activePending)) →
    WritesOk c s fun t => Only [.out, .stepNo, .ctr] s t ∧
      ∀ o, t.cnt o = if o = slcPage (sliceOf x) + 0x038 then s.cnt o + 1 else s.cnt o) ∧
  (Passes c q (.lnEoi r) k s → domOn s (dSlc (sliceOf x)) = false →
    ∃ t, exec c s = .next t ∧ t.out = [] ∧ Only [.out, .stepNo, .pwr, .gates] s t ∧ t.gates = { s.gates with rtpHeld := [q] } ∧
      (bitAt t.pwr.req (dSlc (sliceOf x)) = true ∨ bitAt t.pwr.want (dSlc (sliceOf x)) = true))

/-- Acquire, renew, release and break (R296, R297); the holder is PORT, REQID and the region's TEN. -/
def Obligations.TackReadsAndReleases : Prop :=
  ∀ (c : Instr) (q : RtpReq) (n k : Nat) (s : State),
  let ten := regTen (s.region k)
  let x := s.tackAt n
  let answers := fun (t : State) (res : BitVec 2) => t.out = [rtpOut (accRead (rtpAcc q) (at64 res 0 ||| tackHolder (t.tackAt n))) .ok] ∧
    Only [.out, .stepNo, .ctr, .tack] s t
  let held : Tack := { x with st := .held, ten := ten, port := q.rq.port, reqid := q.rq.reqid, gen := x.gen + 1, endAt := leaseEnd s x }
  (Lets c q (.tkAcq n) k s → q.write = false → ∃ t, exec c s = .next t ∧ (∀ m, m ≠ n → t.tackAt m = s.tackAt m) ∧
    (x.st = .free → answers t 1 ∧ t.tackAt n = held) ∧
    (x.st = .broken → answers t 2 ∧ t.tackAt n = held) ∧
    (holdsTack x ten q.rq = true → answers t 3 ∧ t.tackAt n = { x with endAt := leaseEnd s x }) ∧
    (x.st = .held → holdsTack x ten q.rq = false → answers t 0 ∧ t.tackAt n = x)) ∧
  (LetsWrite c q (.tkRel n) k s → rtpAcc q ≠ .hi → WritesOk c s fun t => Only [.out, .stepNo, .ctr, .tack] s t ∧
    (∀ m, m ≠ n → t.tackAt m = s.tackAt m) ∧
    t.tackAt n =
      if bitAt q.data 0 = true ∧ holdsTack x ten q.rq = true then { x with st := .free, endAt := none }
      else if bitAt q.data 1 = true ∧ ten = 0 ∧ x.st = .held then { x with st := .broken, cause := 3, endAt := none }
      else x)

/-- R298: who may write TK_LEASE, when the value applies, and that it is kept. -/
def Obligations.TackLeaseIsWrittenAndKept : Prop :=
  ∀ (n : Nat) (s : State),
  (∀ (c : Instr) (q : RtpReq) (k : Nat), LetsWrite c q (.tkLease n) k s → rtpAcc q ≠ .hi →
    WritesOk c s fun t => Only [.out, .stepNo, .ctr, .tack] s t ∧ ∀ m, t.tackAt m =
      if m = n ∧ (regTen (s.region k) = 0 ∨ holdsTack (s.tackAt n) (regTen (s.region k)) q.rq = true) then { s.tackAt n with lease := fld q.data 0 32 }
      else s.tackAt m) ∧
  (∀ (ten : BitVec 8) (q : Rq) (w : Reg64) (cause : BitVec 2),
    let e := if (s.tackAt n).lease = 0 then none else some (s.glb.now + BitVec.ofNat 64 (1000 * (s.tackAt n).lease.toNat))
    ((tackRead n ten q s).2.tackAt n).lease = (s.tackAt n).lease ∧ ((tackRel n ten q w s).tackAt n).lease = (s.tackAt n).lease ∧
    ((breakTack n cause s).tackAt n).lease = (s.tackAt n).lease ∧
    ((tackRead n ten q s).1 ≠ 0 → ((tackRead n ten q s).2.tackAt n).endAt = e) ∧
    ((tackRead n ten q s).1 = 0 → (tackRead n ten q s).2.tackAt n = s.tackAt n))

/-- SLC_MASK_OP (R110–R112, Table 6-5). -/
def Obligations.MaskOperationRegister : Prop :=
  ∀ (c : Instr) (q : RtpReq) (k : Nat) (s : State), LetsWrite c q .maskOp k s →
  let w := accMerge (rtpAcc q) (maskOpWord s) q.data
  let src : BitVec 18 := fld w 0 18
  let v := bitAt w 18
  let kept := { s.slc with maskSrc := src, maskValue := v }
  (accOne (rtpAcc q) q.data 63 = false ∨ s.slc.maskRun.isSome = true → WritesOk c s fun t => Only [.out, .stepNo, .slc, .ctr] s t ∧ t.slc = kept) ∧
  (accOne (rtpAcc q) q.data 63 = true → s.slc.maskRun = none →
    (sealedTen s (srcTen (srcNow s src.toNat)) = true → WritesOk c s fun t => Only [.out, .stepNo, .slc, .gates, .tly, .ctr, .log] s t ∧
      t.slc = { kept with maskResult := 1 } ∧ t.violLast 0 = violWords { rtpViol q vSealed none with addr := 0 } 0 s.glb.now) ∧
    (sealedTen s (srcTen (srcNow s src.toNat)) = false → (s.dyn src.toNat).st = .quarantined →
      WritesOk c s fun t => Only [.out, .stepNo, .slc, .ctr] s t ∧ t.slc = { kept with maskResult := 2 }) ∧
    (sealedTen s (srcTen (srcNow s src.toNat)) = false → (s.dyn src.toNat).st ≠ .quarantined →
      ∃ u, exec c s = .next (rtpAnswer 0 .ok (settleMbx u)) ∧ u.slc.maskRun = some src ∧
        u.main src.toNat = srcSetMask (s.main src.toNat) v ∧ (∀ j, j ≠ src.toNat → u.main j = s.main j ∧ u.dyn j = s.dyn j) ∧
        (u.dyn src.toNat).st = (s.dyn src.toNat).st ∧
        (v = true → (s.dyn src.toNat).st = .issued → (u.dyn src.toNat).withdraw.isSome) ∧
        ((v = false ∨ (s.dyn src.toNat).st ≠ .issued) → (u.dyn src.toNat).withdraw = (s.dyn src.toNat).withdraw)))

/-- SLC_SRC_SEL, SLC_SRC_ENTRY and SLC_SRC_CTL (R324, R325, Table 18-10). The ring window (R125, Tables 7-2 and 7-3),
the arbiter registers (R139) and the pacer's floor. -/
def Obligations.SourceAndRingWindowsInstall : Prop :=
  (∀ (c : Instr) (q : RtpReq) (k : Nat) (s : State),
  (LetsWrite c q .srcSel k s → WritesOk c s fun t => Only [.out, .stepNo, .slc, .ctr] s t ∧
    t.slc = { s.slc with selSrc := fld (accMerge (rtpAcc q) (at64 s.slc.selSrc 0) q.data) 0 18, staged := none }) ∧
  (LetsWrite c q .srcEntry k s → WritesOk c s fun t => Only [.out, .stepNo, .slc, .ctr] s t ∧
    t.slc = { s.slc with staged := some (accMerge (rtpAcc q) (srcEntryWord s) q.data &&& 0x03FFFFFFFFFFFFFF#64) }) ∧
  (LetsWrite c q .srcCtl k s →
    let j := s.slc.selSrc.toNat
    (accOne (rtpAcc q) q.data 0 = false → WritesOk c s (Only [.out, .stepNo, .ctr] s)) ∧
    (accOne (rtpAcc q) q.data 0 = true →
      (s.slc.staged = none → WritesOk c s fun t => Only [.out, .stepNo, .slc, .ctr] s t ∧ t.slc = { s.slc with srcResult := 0 }) ∧
      (∀ e, s.slc.staged = some e →
        ((sealedTen s (srcTen (srcNow s j)) || sealedTen s (srcTen e)) = true → WritesOk c s fun t =>
          t.slc = { s.slc with srcResult := 1 } ∧ t.violLast 0 = violWords { rtpViol q vSealed none with addr := 0 } 0 s.glb.now) ∧
        ((sealedTen s (srcTen (srcNow s j)) || sealedTen s (srcTen e)) = false → (s.dyn j).st = .quarantined →
          WritesOk c s fun t => t.slc = { s.slc with srcResult := 2 }) ∧
        ((sealedTen s (srcTen (srcNow s j)) || sealedTen s (srcTen e)) = false → (s.dyn j).st ≠ .quarantined →
          (16384 < carriesUsed s + installNeeds s j → WritesOk c s fun t => t.slc = { s.slc with srcResult := 3 }) ∧
          (carriesUsed s + installNeeds s j ≤ 16384 → ∃ u, exec c s = .next (rtpAnswer 0 .ok (afterDlv (settleLatches u))) ∧
            u.main j = srcClean e ∧ u.shadow j = (s.shadow j).map (fun x => { x with entry := srcClean e }) ∧ u.slc.staged = none ∧
            u.slc.srcResult = 0 ∧ (u.dyn j).st = (s.dyn j).st ∧ (u.dyn j).tagPort = srcPort e ∧
            (u.dyn j).ev = (s.dyn j).ev.map (installCarry s j) ∧ (u.dyn j).rep = (s.dyn j).rep.map (installCarry s j) ∧
            ∀ i, i ≠ j → u.main i = s.main i ∧ u.dyn i = s.dyn i ∧ u.shadow i = s.shadow i)))))) ∧
  (∀ (c : Instr) (q : RtpReq) (k : Nat) (s : State),
  let small := Only [.out, .stepNo, .dlv, .ctr] s
  (LetsWrite c q .lvlMap k s → WritesOk c s fun t => small t ∧ t.dlv = { s.dlv with lvlMap := accMerge (rtpAcc q) s.dlv.lvlMap q.data }) ∧
  (LetsWrite c q .arbCfg k s → rtpAcc q ≠ .hi → WritesOk c s fun t => small t ∧
    t.dlv = { s.dlv with nth := if (fld q.data 0 8).toNat < 2 then 2 else fld q.data 0 8 }) ∧
  (LetsWrite c q .paceCfg k s → rtpAcc q ≠ .hi → WritesOk c s fun t => small t ∧ t.dlv = { s.dlv with floor := fld q.data 0 16 }) ∧
  (LetsWrite c q .rstgSel k s → WritesOk c s fun t => small t ∧
    t.dlv = { s.dlv with rstgSel := fld (accMerge (rtpAcc q) (at64 s.dlv.rstgSel 0) q.data) 0 15, rstg := none }) ∧
  (∀ i, LetsWrite c q (.rstgW i) k s → WritesOk c s fun t => small t ∧
    t.dlv = { s.dlv with rstg := some (setRingWord (rstgEntry s) i (accMerge (rtpAcc q) (ringWord (rstgEntry s) i) q.data)) }) ∧
  (LetsWrite c q .rstgCtl k s →
    let r := s.dlv.rstgSel.toNat
    (accOne (rtpAcc q) q.data 0 = false → WritesOk c s (Only [.out, .stepNo, .ctr] s)) ∧
    (accOne (rtpAcc q) q.data 0 = true →
      (s.dlv.rstg = none → WritesOk c s fun t => small t ∧ t.dlv = { s.dlv with rstgResult := 0 }) ∧
      (∀ e, s.dlv.rstg = some e →
        ((sealedTen s (ringTen (ringNow s r)) || sealedTen s (ringTen e)) = true → WritesOk c s fun t => t.dlv = { s.dlv with rstgResult := 1 } ∧
          t.violLast 0 = violWords { rtpViol q vSealed none with addr := 0 } 0 s.glb.now) ∧
        ((sealedTen s (ringTen (ringNow s r)) || sealedTen s (ringTen e)) = false →
          (rstgOk s r e = false → WritesOk c s fun t => small t ∧ t.dlv = { s.dlv with rstgResult := 3 }) ∧
          (rstgOk s r e = true → (healthy s r && ringMoves e (ringNow s r)) = true →
            WritesOk c s fun t => small t ∧ t.dlv = { s.dlv with rstgResult := 2 }) ∧
          (rstgOk s r e = true → (healthy s r && ringMoves e (ringNow s r)) = false →
            ∃ u, exec c s = .next (rtpAnswer 0 .ok (afterDlv u)) ∧ (∀ ep, ringAt u r ep = e) ∧ ringNow u r = e ∧ u.dlv.rstg = none ∧
              u.dlv.rstgResult = 0 ∧ ∀ i, i ≠ r → u.ringV i = s.ringV i))))))

/-- The gate window and GATE_UPDATE (Tables 5-10 to 5-13, R301). -/
def Obligations.GateWindowInstalls : Prop :=
  ∀ (c : Instr) (q : RtpReq) (k : Nat) (s : State),
  let small := Only [.out, .stepNo, .gates, .ctr] s
  (LetsWrite c q .stgSel k s → WritesOk c s fun t => small t ∧
    t.gates = { s.gates with stgSel := fld (accMerge (rtpAcc q) (at64 s.gates.stgSel 0) q.data) 0 14 }) ∧
  (∀ i, LetsWrite c q (.stgW i) k s → WritesOk c s fun t => small t ∧ (∀ j, t.region j = s.region j) ∧ t.gates.go = s.gates.go ∧
    ∀ j, t.stagedRegion j =
      if stgKey s = some j then some (setRegionWord (stgRegion s) i (accMerge (rtpAcc q) (stgWord s i) q.data)) else s.stagedRegion j) ∧
  (LetsWrite c q .gtUpd k s →
    (accOne (rtpAcc q) q.data 0 = true → WritesOk c s fun t => small t ∧ t.gates = { s.gates with go := true }) ∧
    (accOne (rtpAcc q) q.data 0 = false → WritesOk c s (Only [.out, .stepNo, .ctr] s))) ∧
  (Up s → s.gates.go = true → accepting s = true →
    (sleepingDips s = [] → ∃ u, exec .gateUpdate s = .next (afterDlv (releaseColour u)) ∧ Only [.out, .stepNo, .gates] s u ∧ u.gates.go = false ∧
      (∀ j, u.stagedRegion j = none) ∧
      ∀ j, u.region j = match s.stagedRegion j with
        | some r => if sealedTen s (regTen (s.region j)) || sealedTen s (regTen r) then s.region j else r
        | none => s.region j) ∧
    (∀ n ∈ sleepingDips s, ∃ t, exec .gateUpdate s = .next t ∧ Only [.out, .stepNo, .pwr] s t ∧
      (bitAt t.pwr.req (dDip n) = true ∨ bitAt t.pwr.want (dDip n) = true)))

/-- PRF_SEL and PROFILE_CHANGE_COMPLETE (R60, Table 3-5). -/
def Obligations.ProfileChanges : Prop :=
  ∀ (s : State),
  (∀ (c : Instr) (q : RtpReq) (k : Nat), LetsWrite c q .prfSel k s → rtpAcc q ≠ .hi → WritesOk c s fun t =>
    Only [.out, .stepNo, .pwr, .glb, .slc, .dlv, .ctr] s t ∧ t.pwr.on = s.pwr.on ∧
    t.glb = if s.glb.prfBusy = false ∧ fld q.data 0 2 ≠ s.glb.prfActive then
      { s.glb with prfReq := fld q.data 0 2, prfBusy := true, prfNext := fld q.data 0 2 } else { s.glb with prfReq := fld q.data 0 2 }) ∧
  (Up s → s.glb.prfBusy = true → awake s = true → accepting s = true → ∃ u, exec .profileChangeComplete s = .next (startProfile (settleMbx u)) ∧
    u.glb = { s.glb with prfActive := s.glb.prfNext, prfBusy := false } ∧ u.pwr.steerLow = decide (s.glb.prfNext = pFrugal) ∧
    u.pwr.on = s.pwr.on)

/-- ERR_RING_BASE, the consumer indices of the error ring and a ledger, and ERR_CORE_CTL (R131, R276, R290, R295). -/
def Obligations.ErrorAndLedgerRegisters : Prop :=
  ∀ (c : Instr) (q : RtpReq) (k : Nat) (s : State),
  (LetsWrite c q .errBase k s →
    let w := accMerge (rtpAcc q) (at64 s.log.size 0 ||| at64 s.log.base 12) q.data
    WritesOk c s fun t => Only [.out, .stepNo, .dlv, .ctr, .log] s t ∧ t.log.base = fld w 12 52 ∧
      t.log.size = (if 8 < (fld w 0 4).toNat then 8 else fld w 0 4) ∧ t.log.prod = 0 ∧ t.log.cons = 0 ∧ t.log.faulted = false ∧
      (∀ o ∈ t.dlv.own, o.copy = none) ∧
      (fld w 12 52 ≠ 0 → ∀ e, (t.logEnt e).isSome = (s.logEnt e).isSome)) ∧
  (LetsWrite c q .errCons k s → rtpAcc q ≠ .hi → WritesOk c s fun t => Only [.out, .stepNo, .ctr, .log] s t ∧
    t.log = if (s.log.prod - fld q.data 0 31).toNat ≤ errRingRecs s then { s.log with cons := fld q.data 0 31 } else s.log) ∧
  (∀ n, LetsWrite c q (.lcons n) k s → rtpAcc q ≠ .hi → WritesOk c s fun t => Only [.out, .stepNo, .dlv, .tly, .ctr] s t ∧
    (t.ledgerAt n).cons = (if ((s.ledgerAt n).prod - fld q.data 0 31).toNat ≤ ledgerSize (s.ledgerAt n) then fld q.data 0 31 else (s.ledgerAt n).cons) ∧
    ∀ m, (t.ledgerAt m).base = (s.ledgerAt m).base ∧ (m ≠ n → (t.ledgerAt m).cons = (s.ledgerAt m).cons)) ∧
  (LetsWrite c q .coreCtl k s →
    (accOne (rtpAcc q) q.data 0 = true → s.fw.phase = .halted →
      WritesOk c s fun t => t.fw.phase = .restarting ∧ t.fw.restarts = [] ∧ t.fw.coreRestart = true ∧
        Only [.out, .stepNo, .pwr, .intake, .mbx, .fw, .ctr] s t) ∧
    (accOne (rtpAcc q) q.data 0 = false ∨ s.fw.phase ≠ .halted → WritesOk c s (Only [.out, .stepNo, .ctr] s)))

/-- Class-S flags and their tags (R317). Writes of counters and of settings (R84, R267, R281, R315, Table 12-8). -/
def Obligations.FlagsCountersAndSettingsTakeWrites : Prop :=
  ((∀ (f : Flag), f.hwSet.set = true ∧ f.hwSet.tag = f.tag + 1 ∧ ((List.range 16).foldl (fun x _ => x.hwSet) f).tag = f.tag) ∧
  ∀ (c : Instr) (q : RtpReq) (k : Nat) (s : State),
  let cleared := fun (f g : Flag) (i j : Nat) => g.tag = f.tag ∧
    g.set = (if accOne (rtpAcc q) q.data i = true ∧ fld (accData (rtpAcc q) q.data) j 4 = f.tag then false else f.set)
  (LetsWrite c q .timeStat k s → WritesOk c s fun t => Only [.out, .stepNo, .glb, .ctr] s t ∧ cleared (stallFlag s) (stallFlag t) 0 4 ∧
    t.glb.stalled = s.glb.stalled ∧ t.glb.stalls = s.glb.stalls ∧ t.glb.now = s.glb.now) ∧
  (LetsWrite c q .paceStat k s → WritesOk c s fun t => Only [.out, .stepNo, .dlv, .ctr] s t ∧ cleared (shortFlag s) (shortFlag t) 0 4 ∧
    t.dlv.ceil = s.dlv.ceil) ∧
  (LetsWrite c q .twin k s → WritesOk c s fun t => Only [.out, .stepNo, .twin, .ctr] s t ∧ cleared (takeoverFlag s) (takeoverFlag t) 5 8 ∧
    t.twin.state = s.twin.state ∧ t.twin.takeovers = s.twin.takeovers) ∧
  (∀ i, LetsWrite c q (.ctrVal i) k s → WritesOk c s fun t => Only [.out, .stepNo, .ctr] s t ∧
    cleared (wrapFlag (rtpTaken s) i) (wrapFlag t i) 48 52 ∧
    (t.pctr i).count = fld (accMerge (rtpAcc q) (at64 ((rtpTaken s).pctr i).count 0) q.data) 0 48 ∧
    ∀ j, j ≠ i → t.pctr j = (rtpTaken s).pctr j) ∧
  (∀ (f : FlagReg) (tag : BitVec 4) (rq : Rq) (r : Reg), c = .statusFlagClear f tag rq → LetsWrite c q r k s → WritesOk c s fun t =>
    flagOf t f = (if (flagOf (rtpTaken s) f).tag = tag then { flagOf (rtpTaken s) f with set := false } else flagOf (rtpTaken s) f) ∧
    ∀ d j, f = .ctrWrap d j → fld (t.pctr (8 * d.val + j.val)).count 0 32 = fld ((rtpTaken s).pctr (8 * d.val + j.val)).count 0 32)) ∧
  (∀ (c : Instr) (q : RtpReq) (k : Nat) (s : State),
  let a := rtpAcc q
  (∀ o, LetsWrite c q (.counter o) k s → WritesOk c s fun t => Only [.out, .stepNo, .ctr] s t ∧
    ∀ j, t.cnt j = if j = o ∧ pageOff s o = false then fld (accMerge a (at64 (s.cnt o) 0) q.data) 0 48 else s.cnt j) ∧
  (∀ n o, LetsWrite c q (.tenCounter n o) k s → WritesOk c s fun t => Only [.out, .stepNo, .ctr] s t ∧
    ∀ j, t.cnt j = if j = o ∧ regTen (s.region k) = 0 ∧ pageOff s o = false then fld (accMerge a (at64 (s.cnt o) 0) q.data) 0 48 else s.cnt j) ∧
  (∀ n, LetsWrite c q (.weight n) k s → WritesOk c s fun t => Only [.out, .stepNo, .tly, .ctr] s t ∧
    (∀ j, t.weight j = if j = n then accMerge a (s.weight n) q.data else s.weight j) ∧ ∀ j, t.tallyAt j = s.tallyAt j) ∧
  (∀ n, LetsWrite c q (.ctrSel n) k s → WritesOk c s fun t => Only [.out, .stepNo, .ctr] s t ∧ t.ctr.cnt = s.ctr.cnt ∧
    ∀ j, t.ctrSel j = if j = n then accMerge a (s.ctrSel n) q.data else s.ctrSel j) ∧
  (LetsWrite c q .laneCfg k s →
    (s.pwr.straps.lanes ≠ 0 → WritesOk c s fun t => Only [.out, .stepNo, .twin, .link, .ctr, .log] s t ∧
      t.twin.laneCfg = fld (accMerge a (at64 s.twin.laneCfg 0) q.data) 0 24) ∧
    (s.pwr.straps.lanes = 0 → WritesOk c s (Only [.out, .stepNo, .ctr] s))) ∧
  (LetsWrite c q .sessSel k s → WritesOk c s fun t => Only [.out, .stepNo, .relay, .ctr] s t ∧
    t.relay = if ownBlk s = 0x7FF then s.relay else { s.relay with sessSel := fld (accMerge a (at64 s.relay.sessSel 0) q.data) 0 12 }))

/-- MBX_CMD, MBX_NOTE and MBX_ARG (R165, R166, R170). -/
def Obligations.MailboxRegistersTakeWrites : Prop :=
  ∀ (c : Instr) (q : RtpReq) (m : Mbx) (k : Nat) (s : State),
  let b := s.mailbox (mbxKey m)
  let w := accMerge (rtpAcc q) (mbxCmdWord b) q.data
  let others := fun (t : State) => ∀ j, j ≠ mbxKey m → t.mailbox j = s.mailbox j
  (LetsWrite c q (.mbxCmd m) k s →
    (accOne (rtpAcc q) q.data 63 = true →
      (b.go = false → goRestarts s = false → WritesOk c s fun t => Only [.out, .stepNo, .mbx, .ctr] s t ∧ others t ∧
        t.mailbox (mbxKey m) = { b with opcode := fld w 0 16, seq := fld w 16 16, argLen := fld w 32 11, note := bitAt w 43, go := true,
                                        done := false, busy := .go, cmd := none, secured := none, held := none, slow := false }) ∧
      (b.go = false → goRestarts s = true → WritesOk c s fun t => others t ∧ (t.mailbox (mbxKey m)).status = stRestarting ∧
        (t.mailbox (mbxKey m)).rspSeq = fld w 16 16 ∧ (t.mailbox (mbxKey m)).go = false ∧ (t.mailbox (mbxKey m)).done = true ∧
        (t.mailbox (mbxKey m)).replay = false ∧ (t.mailbox (mbxKey m)).journal = b.journal) ∧
      (b.go = true → WritesOk c s fun t => Only [.out, .stepNo, .mbx, .ctr] s t ∧ others t ∧
        t.mailbox (mbxKey m) = { b with held := some { opcode := fld w 0 16, seq := fld w 16 16, argLen := (fld w 32 11).toNat, note := bitAt w 43, args := [] } })) ∧
    (accOne (rtpAcc q) q.data 63 = false → WritesOk c s fun t => Only [.out, .stepNo, .mbx, .ctr] s t ∧ others t ∧
      t.mailbox (mbxKey m) = if b.go = true then b else { b with opcode := fld w 0 16, seq := fld w 16 16, argLen := fld w 32 11, note := bitAt w 43 })) ∧
  (LetsWrite c q (.mbxNote m) k s →
    let v := accMerge (rtpAcc q) (mbxNoteWord b) q.data
    WritesOk c s fun t => Only [.out, .stepNo, .mbx, .ctr] s t ∧ others t ∧ t.mailbox (mbxKey m) = { b with noteSrc := fld v 0 18, noteValid := bitAt v 18 }) ∧
  (∀ i, LetsWrite c q (.mbxArg m i) k s →
    let v := accMerge (rtpAcc q) (reg64 (Tbl.get zeroD b.arg (2 * i)) (Tbl.get zeroD b.arg (2 * i + 1))) q.data
    WritesOk c s fun t => Only [.out, .stepNo, .mbx, .ctr] s t ∧ others t ∧
      if b.busy ≠ .idle ∧ b.cmd = none then t.mailbox (mbxKey m) = b
      else { t.mailbox (mbxKey m) with arg := [] } = { b with arg := [] } ∧ ∀ j, Tbl.get zeroD (t.mailbox (mbxKey m)).arg j =
        if j = 2 * i then fld v 0 32 else if j = 2 * i + 1 then fld v 32 32 else Tbl.get zeroD b.arg j)

/-- DIP_HANDSHAKE (R22, R25, R48, R80, R189, R203). `arrived` is the state with the handshake at the pins; dipHold
says what keeps it. -/
def Obligations.HandshakesAreTakenOrHeld : Prop :=
  ∀ (dip : Fin 16) (mv : BitVec 4) (d : BitVec 512) (s : State), Up s → s.heldL dip.val = [] →
  let a := arrived dip.val mv d s
  (dipHold dip.val mv d a = .free → ∃ t, exec (.dipHandshake dip mv d) s = .next t ∧ Out.dipAck dip.val ∈ t.out ∧ t.heldL dip.val = [] ∧
    let f := ((List.range 4).filter fun m => bitAt mv m).foldl (fun x m => takeMsg dip.val (dipMsg d m) x) (a.setHeldL dip.val [])
    (∀ q, t.queue q = f.queue q) ∧ (∀ n, t.folder n = f.folder n) ∧ t.intake.fences = f.intake.fences) ∧
  (dipHold dip.val mv d a ≠ .free → ∃ t, exec (.dipHandshake dip mv d) s = .next t ∧ t.out = [] ∧
    t.heldL dip.val = [{ mv, d, stalled := decide (dipHold dip.val mv d a = .queue) }] ∧ (∀ q, t.queue q = s.queue q) ∧
    (∀ n, t.folder n = s.folder n) ∧
    (dipHold dip.val mv d a = .queue → t.cnt (dipPage dip.val + 0x018) = s.cnt (dipPage dip.val + 0x018) + 1) ∧
    (dipHold dip.val mv d a = .power → bitAt t.pwr.req (dDip dip.val) = true ∨ bitAt t.pwr.want (dDip dip.val) = true))

/-- One message at a DIP (R24, R75, R76, R88, R189, R203). -/
def Obligations.OneMessageAtTheDip : Prop :=
  ∀ (dip : Nat) (m : BitVec 128) (s : State), dip < 16 →
  let t := takeMsg dip m s
  let x := stampMsg s m
  let mine := 8 * dip + sliceOf x.src
  (inbandOk m = false → Only [.ctr] s t ∧ t.cnt (dipPage dip) = s.cnt (dipPage dip) + 1) ∧
  (∀ kind reg, inbandOk m = true → dipGate s m = .fault kind reg → Only [.gates, .tly, .ctr, .log] s t ∧
    t.violLast (tenantOfColour s (dmColour m)).toNat = violWords (dipViol dip m kind reg) (tenantOfColour s (dmColour m)) s.glb.now) ∧
  (∀ k, inbandOk m = true → dipGate s m = .lets k → s.log.fatal = false → x.kind ≠ kFence →
    (∀ e, (s.folder dip).find? (fun e => e.m.src = x.src) = some e →
      (foldMatches e x = true → (∀ q, t.queue q = s.queue q) ∧
        t.folder dip = (s.folder dip).filter (fun y => y.m.src ≠ x.src) ++ [foldAdd e x] ∧
        t.cnt (dipPage dip + 0x008) = s.cnt (dipPage dip + 0x008) + 1) ∧
      (foldMatches e x = false → t.folder dip = (s.folder dip).filter (fun y => y.m.src ≠ x.src) ++ [foldNew x] ∧
        ∀ q, t.queue q = if q = mine then s.queue q ++ (if 0 < e.count then [accMsg e] else []) ++ [x] else s.queue q)) ∧
    ((s.folder dip).find? (fun e => e.m.src = x.src) = none →
      ((s.folder dip).length < 64 → t.folder dip = s.folder dip ++ [foldNew x] ∧
        ∀ q, t.queue q = if q = mine then s.queue q ++ [x] else s.queue q) ∧
      (∀ e r, s.folder dip = e :: r → 64 ≤ (s.folder dip).length → t.folder dip = r ++ [foldNew x] ∧
        ∀ q, t.queue q = s.queue q ++ (if 0 < e.count ∧ q = 8 * dip + sliceOf e.m.src then [accMsg e] else []) ++ (if q = mine then [x] else [])))) ∧
  (∀ k, inbandOk m = true → dipGate s m = .lets k → s.log.fatal = false → x.kind = kFence →
    ∃ f, t.intake.fences = s.intake.fences ++ [f] ∧ f.src = x.src ∧ f.token = x.first ∧ f.time = x.time ∧ f.epoch = x.epoch ∧
      f.applied = false ∧ f.requested = false ∧ f.ahead = markers 16 (flushAll (perf (dDip dip) 0x10 s)) ∧ ∀ g ∈ s.intake.fences, g.id < f.id) ∧
  (∀ k, inbandOk m = true → dipGate s m = .lets k → s.log.fatal = true → (s.folder dip).find? (fun e => e.m.src = x.src) = none →
    (s.folder dip).length < 64 → canForward s = true → s.queue mine = [] →
    (∀ q, t.queue q = s.queue q) ∧ (t.linkAt 0).txReq = (s.linkAt 0).txReq ++ [.forward (forwardBits x)])

/-- FOLDER_SLICE_ANSWER (R75, R76) and SLICE_APPLY (R77, R80, R185, R189). -/
def Obligations.FolderAnswersAndSliceApplies : Prop :=
  ∀ (s : State), Up s →
  (∀ (dip : Fin 16) (src : BitVec 18) (e : FoldEnt), (s.folder dip.val).find? (fun e => e.m.src = src) = some e → inQueue s dip.val src = false →
    accepting s = true → s.log.fatal = false → ∃ t, exec (.folderSliceAnswer dip src) s = .next t ∧
      (0 < e.count → queueFull s dip.val src = false → (∀ q, t.queue q = if q = 8 * dip.val + sliceOf src then s.queue q ++ [accMsg e] else s.queue q) ∧
        t.folder dip.val = (s.folder dip.val).map fun x => if x.m.src = src then { x with count := 0 } else x) ∧
      (e.count = 0 → (∀ q, t.queue q = s.queue q) ∧ t.folder dip.val = (s.folder dip.val).filter fun x => x.m.src ≠ src)) ∧
  (∀ (o : Origin) (sl : Fin 8) (m : Msg) (rest : List Msg), s.queue (8 * originKey o + sl.val) = m :: rest → applying s = true →
    (s.log.fatal = false ∨ accepting s = false) →
    (domOn s (dSlc sl.val) = true → ∃ u, exec (.sliceApply o sl) s = .next (settleMbx (serveDips (fencesGo u))) ∧
      (∀ q, u.queue q = if q = 8 * originKey o + sl.val then rest else s.queue q) ∧
      let v := passMarkers (8 * originKey o + sl.val) (s.begin_.setQueue (8 * originKey o + sl.val) rest)
      u.slc = (applyMsg m v).slc ∧ v.slc = s.slc ∧ v.intake.fences.length = s.intake.fences.length ∧
      ∀ (i : Nat) (f : Fence), s.intake.fences[i]? = some f → ∃ g : Fence, v.intake.fences[i]? = some g ∧ g.id = f.id ∧
        ∀ q, Tbl.get natD g.ahead q = if q = 8 * originKey o + sl.val then Tbl.get natD f.ahead q - 1 else Tbl.get natD f.ahead q) ∧
    (domOn s (dSlc sl.val) = false → ∃ t, exec (.sliceApply o sl) s = .next t ∧ Only [.out, .stepNo, .pwr] s t ∧
      (bitAt t.pwr.req (dSlc sl.val) = true ∨ bitAt t.pwr.want (dSlc sl.val) = true)))

/-- Apply at a slice: the tag fold (R77), the refusals (R65, R67, R72) and Table 6-2 (R106). -/
def Obligations.SourceTransitionsAtApply : Prop :=
  ∀ (m : Msg) (s : State),
  let k := m.src.toNat
  let t := applyMsg m s
  let d := s.dyn k
  let e := srcEntryAt s k m.epoch
  (∀ j, j ≠ k → t.dyn j = s.dyn j) ∧
  (tagFolds s m = true → t.dyn k = d ∧ ∀ x c f y l, curEv d = some x → evSlot s x = some (c, f, y, l) →
    evSlot t x = some (if srcFirstPol (evEntry s k x) then c else m.last, holdInc f m.n, y, l)) ∧
  (tagFolds s m = false →
    (d.st = .quarantined → t.dyn k = d ∧ t.cnt (slcPage (sliceOf m.src) + 0x028) = s.cnt (slcPage (sliceOf m.src) + 0x028) + BitVec.ofNat 48 m.n) ∧
    (d.st ≠ .quarantined → srcLive s e m.epoch = false →
      t.dyn k = d ∧ t.cnt (slcPage (sliceOf m.src) + 0x020) = s.cnt (slcPage (sliceOf m.src) + 0x020) + BitVec.ofNat 48 m.n) ∧
    (d.st ≠ .quarantined → srcLive s e m.epoch = true → (portRefuses m (srcPort e) = true ∨ modeAccepts (srcMode e) m.kind = false) →
      t.dyn k = d ∧ ∃ kind, t.violLast (tenantOfColour s m.colour).toNat = violWords (applyViol m kind) (tenantOfColour s m.colour) s.glb.now ∧
        kind = if portRefuses m (srcPort e) then (if srcClaim e then vClaim else vPort) else vMode) ∧
    (d.st ≠ .quarantined → srcLive s e m.epoch = true → portRefuses m (srcPort e) = false → modeAccepts (srcMode e) m.kind = true →
      (m.kind = kAssert ∨ m.kind = kLevelHi →
        (d.st = .idle → (t.dyn k).st = pendState s e ∧ (t.dyn k).line = (d.line || decide (m.kind = kLevelHi)) ∧ (t.dyn k).evMode = srcMode e ∧
          ∃ x, (t.dyn k).ev = some x ∧ x.epoch = m.epoch ∧ x.frozen = false ∧ x.dup = false ∧
            (lowestGap (slotsOf s (sliceOf m.src)) 0 < 8192 →
              evSlot t x = some (if srcFirstPol e then m.first else m.last, holdInc 0 (m.n - 1), m.time, false)) ∧
            (8192 ≤ lowestGap (slotsOf s (sliceOf m.src)) 0 → x.slot = none)) ∧
        (d.st = .pending ∨ d.st = .held ∨ d.st = .activePending ∨ d.st = .issued → (t.dyn k).st = d.st) ∧
        (d.st = .active → (t.dyn k).st = if m.kind = kLevelHi ∧ d.line = true then .active else .activePending)) ∧
      (m.kind = kLevelLo ∨ m.kind = kCancel →
        (d.st = .pending ∨ d.st = .held → (t.dyn k).st = .idle ∧ (t.dyn k).ev = none) ∧
        (d.st = .activePending → (t.dyn k).st = .active ∧ (t.dyn k).ev = none) ∧
        (d.st = .idle ∨ d.st = .active → (t.dyn k).st = d.st) ∧
        (d.st = .issued → (t.dyn k).st = .issued ∧ (t.dyn k).withdraw.isSome ∧ (t.dyn k).rep = none) ∧
        (t.dyn k).line = (d.line && decide (m.kind = kCancel)))))

/-- EDGE_CAUGHT, LEVEL_CHANGE_SETTLED and WIRED_PRESENTATION (R68–R71). -/
def Obligations.WiredInputsArePresented : Prop :=
  ∀ (n : Fin 1024) (s : State), Up s →
  let sl := sliceOf (BitVec.ofNat 18 n.val)
  (∃ t, exec (.edgeCaught n) s = .next t ∧ Only [.out, .stepNo, .intake] s t ∧
    (∀ j, t.edge j = if j = n.val ∧ edgeSelected s n.val = true then min 255 (s.edge j + 1) else s.edge j) ∧
    (∀ j, t.sampler j = s.sampler j) ∧ ∀ q, t.queue q = s.queue q) ∧
  (∀ level, ∃ t, exec (.levelChangeSettled n level) s = .next t ∧ Only [.out, .stepNo, .intake] s t ∧ (∀ j, t.edge j = s.edge j) ∧
    (∀ q, t.queue q = s.queue q) ∧ ∀ j, t.sampler j =
      if j = n.val ∧ (s.sampler j).level ≠ level then
        { s.sampler j with level := level, out := if level = (s.sampler j).presented then none else some level }
      else s.sampler j) ∧
  (accepting s = true → s.log.fatal = false → domOn s (dSlc sl) = true →
    (edgeSelected s n.val = true → s.edge n.val ≠ 0 → ∃ t, exec (.wiredPresentation n) s = .next t ∧ Only [.out, .stepNo, .pwr, .intake, .ctr] s t ∧
      (∀ q, t.queue q = if q = 128 + sl then s.queue q ++ [wiredMsg s n.val kAssert (s.edge n.val)] else s.queue q) ∧
      (∀ j, t.edge j = if j = n.val then 0 else s.edge j) ∧ ∀ j, t.sampler j = s.sampler j) ∧
    (∀ l, edgeSelected s n.val = false → srcMode (srcNow s n.val) = 1 → (s.sampler n.val).out = some l →
      ∃ t, exec (.wiredPresentation n) s = .next t ∧ Only [.out, .stepNo, .pwr, .intake, .ctr] s t ∧
        (∀ q, t.queue q = if q = 128 + sl then s.queue q ++ [wiredMsg s n.val (if l then kLevelHi else kLevelLo) 1] else s.queue q) ∧
        (∀ j, t.edge j = s.edge j) ∧
        ∀ j, t.sampler j = if j = n.val then { s.sampler j with presented := l, out := none } else s.sampler j)) ∧
  (accepting s = true → s.log.fatal = false → domOn s (dSlc sl) = false → edgeSelected s n.val = true → s.edge n.val ≠ 0 →
    ∃ t, exec (.wiredPresentation n) s = .next t ∧ Only [.out, .stepNo, .pwr] s t ∧
      (bitAt t.pwr.req (dSlc sl) = true ∨ bitAt t.pwr.want (dSlc sl) = true))

/-- SELECT (R106, R113, R114). bestOf is the event that the slice's tree offers; readyEv, levelFull and outranks are
the terms of the ranking. -/
def Obligations.SelectIssuesTheWinners : Prop :=
  ∀ (sl : Fin 8) (s : State), Up s → ranking s = true → domOn s (dSlc sl.val) = true → ∃ t, exec (.select sl) s = .next t ∧
  (bestOf s sl.val = none → Only [.out, .stepNo] s t) ∧
  (∀ k e, bestOf s sl.val = some (k, e) → let ent := evEntry s k e
    readyEv s k = some e ∧ (s.dyn k).st = .pending ∧ (t.dyn k).st = .issued ∧
    (∃ q ∈ t.selQ (srcLvl ent).toNat, q.kind = .event (BitVec.ofNat 18 k) ∧ q.lvl = srcLvl ent ∧ q.dest = destOf s ent e.epoch ∧
      q.epoch = e.epoch ∧ q.res = false) ∧
    ∀ j f, readyEv s j = some f → sliceOf (BitVec.ofNat 18 j) = sl.val → levelFull s (srcLvl (evEntry s j f)).toNat = false →
      outranks (rankKey s j f) (rankKey s k e) = false) ∧
  (entering t).length ≤ (entering s).length + 4 ∧
  ∀ j, t.dyn j = s.dyn j ∨
    (sliceOf (BitVec.ofNat 18 j) = sl.val ∧ (s.dyn j).st = .pending ∧ t.dyn j = { s.dyn j with st := .issued })

/-- LEVEL_QUEUE_ENTRY (R113, R130, R143, R157). -/
def Obligations.LevelQueueEntryAdmits : Prop :=
  ∀ (l : Fin 16) (s : State) (q : Req), Up s → ranking s = true → nextEntry l.val (fenceRequests s.begin_) = some q →
  let v := (fenceRequests s.begin_).setSelQ l.val (((fenceRequests s.begin_).selQ l.val).erase q)
  ∃ u, exec (.levelQueueEntry l) s = .next (afterDlv u) ∧ (∀ i, u.selQ i = v.selQ i) ∧
    (∀ r, q.dest = .half r → halfOpen v r.toNat = false →
      u.cnt (dlvPage + 0x088) = v.cnt (dlvPage + 0x088) + 1 ∧ (∀ i, u.lq i = v.lq i) ∧ (∀ i, u.paceQ i = v.paceQ i) ∧ u.dlv.members = v.dlv.members) ∧
    (∀ r x, q.dest = .half r → halfOpen v r.toNat = true → entryToken q.lvl.toNat r.toNat v = some x →
      (u.half r.toNat).resv = (v.half r.toNat).resv + 1 ∧ (∀ i, u.paceQ i = v.paceQ i) ∧
      (isMember q = false → u.dlv.members = v.dlv.members ∧
        ∀ i, u.lq i = if i = q.lvl.toNat then v.lq i ++ [{ q with age := v.stepNo, res := true }] else v.lq i) ∧
      (v.glb.stalled = true → u.dlv.poolBucket = v.dlv.poolBucket ∧ ∀ i, u.bucket i = v.bucket i) ∧
      (v.glb.stalled = false → ringGuar (ringNow v r.toNat) ≠ 0 → token ≤ v.bucket r.toNat → u.dlv.poolBucket = v.dlv.poolBucket ∧
        ∀ i, u.bucket i = if i = r.toNat then v.bucket i - token else v.bucket i) ∧
      (v.glb.stalled = false → (ringGuar (ringNow v r.toNat) = 0 ∨ v.bucket r.toNat < token) →
        u.dlv.poolBucket + token = v.dlv.poolBucket ∧ v.paceQ q.lvl.toNat = [] ∧ ∀ i, u.bucket i = v.bucket i)) ∧
    (∀ r, q.dest = .half r → halfOpen v r.toNat = true → entryToken q.lvl.toNat r.toNat v = none →
      (∀ i, u.paceQ i = if i = q.lvl.toNat then v.paceQ i ++ [q] else v.paceQ i) ∧ (∀ i, u.lq i = v.lq i) ∧
      u.cnt (dlvPage + 0x0E0) = v.cnt (dlvPage + 0x0E0) + 1 ∧ ∀ i, u.half i = v.half i) ∧
    (∀ b r, q.dest = .remote b r → isMember q = false →
      ∀ i, u.lq i = if i = q.lvl.toNat then v.lq i ++ [{ q with age := v.stepNo }] else v.lq i) ∧
    (∀ set src, q.dest = .mcast set → q.kind = .event src →
      let rings := (mcastAt v set q.epoch).members
      let full := membersWhere rings fun r => healthy v r && (v.half r).full
      let now := membersWhere rings fun r => halfOpen v r
      (full ≠ [] → 4096 ≤ residueEntries v → u.cnt (dlvPage + 0x0C0) = v.cnt (dlvPage + 0x0C0) + 1 ∧
        u.cnt (dlvPage + 0x088) = v.cnt (dlvPage + 0x088) + 1) ∧
      (full = [] ∨ residueEntries v < 4096 →
        u.cnt (dlvPage + 0x0B8) = v.cnt (dlvPage + 0x0B8) + BitVec.ofNat 48 (rings.length - full.length - now.length) ∧
        (full ≠ [] → u.mc src.toNat = some { rings, residue := full, launched := none, sel := q.sel }) ∧
        ∀ m ∈ now, ∃ p : Req, p.kind = .member src m ∧ p.dest = .half (rings.getD m 0) ∧ p.res = true ∧
          (p ∈ u.dlv.members ∨ p ∈ u.paceQ q.lvl.toNat)))

/-- PACER_TOKEN_TAKEN (R157) and RELAY_STAGE_GRANT (R238). -/
def Obligations.PacerStageAndRelayStage : Prop :=
  ∀ (l : Fin 16) (s : State), Up s → ranking s = true →
  (let v := returnPaced l.val s.begin_
    ∀ q₀ ∈ v.paceQ l.val, ∀ r₀, reqHalf q₀ = some r₀ → anyToken r₀ v ≠ none →
      ∃ pre q post r u, v.paceQ l.val = pre ++ q :: post ∧ reqHalf q = some r ∧ anyToken r v ≠ none ∧
        (∀ p ∈ pre, ∀ r', reqHalf p = some r' → anyToken r' v = none) ∧
        exec (.pacerTokenTaken l) s = .next (afterDlv u) ∧ u.paceQ l.val = pre ++ post ∧ (∀ i, i ≠ l.val → u.paceQ i = v.paceQ i) ∧
        (isMember q = false → u.dlv.members = v.dlv.members ∧
          ∀ i, u.lq i = if i = q.lvl.toNat then v.lq i ++ [{ q with age := v.stepNo, res := true }] else v.lq i) ∧
        (isMember q = true → u.dlv.members = v.dlv.members ++ [{ q with age := v.stepNo, res := true }] ∧ ∀ i, u.lq i = v.lq i) ∧
        (u.half r).resv = (v.half r).resv + if q.res then 0 else 1) ∧
  (∀ q rest b r, s.lq l.val = q :: rest → q.dest = .remote b r → s.relay.stage.length < 256 →
    ∃ t, exec (.relayStageGrant l) s = .next t ∧ Only [.out, .stepNo, .slc, .dlv, .relay] s t ∧ t.relay = { s.relay with stage := s.relay.stage ++ [q] } ∧
      (∀ i, t.lq i = if i = l.val then rest else s.lq i) ∧
      ∀ j, t.dyn j = if ofSource j q = true then { s.dyn j with ev := (s.dyn j).ev.map fun e => { e with frozen := true } } else s.dyn j)

/-- ARBITER_DECISION (R136, R137, R141) and GATHER_WINDOW_END (R56). cands is what takes part; candKey gives input and
age. -/
def Obligations.ArbiterGrants : Prop :=
  ∀ (ch : Fin 4) (s : State), Up s →
  (∀ w, mayGrant s ch.val = true → winner s (decide (s.dlv.nth.toNat ≤ s.grantCount ch.val + 1)) (cands s ch.val) = some w →
    let nth := decide (s.dlv.nth.toNat ≤ s.grantCount ch.val + 1)
    w ∈ cands s ch.val ∧
    (nth = true → ∀ c ∈ cands s ch.val, olderCand s c w = false) ∧
    (nth = false → ∀ c ∈ cands s ch.val, (candKey s c).1 ≤ (candKey s w).1 ∧ ((candKey s c).1 = (candKey s w).1 → olderCand s c w = false)) ∧
    ∃ t, exec (.arbiterDecision ch) s = .next t ∧ t.grantCount ch.val = (if nth then 0 else s.grantCount ch.val + 1) ∧
      (∀ c, c ≠ ch.val → t.grants c = s.grants c) ∧
      (∀ o, w = .own o → t.grants ch.val = s.grants ch.val ++ [.own o] ∧ t.dlv.own = s.dlv.own.drop 1) ∧
      (∀ q, candReq s w = some q → ∃ r qs gather, q.dest = .half r ∧
        t.grants ch.val = s.grants ch.val ++ [.recs r (q :: qs) (s.half r.toNat).restarts gather q.epoch (ringAt s r.toNat q.epoch)] ∧
        (qs.Pairwise fun a b => a.sel ≤ b.sel) ∧ qs.length + 1 ≤ packLimit s r.toNat ∧ (∀ p ∈ qs, forHalf r.toNat p = true ∧ p.res = true) ∧
        (gather = true → s.glb.prfActive = pThroughput ∧ s.glb.prfBusy = false))) ∧
  (∀ pre r qs n ep ent post, s.grants ch.val = pre ++ .recs r qs n true ep ent :: post → (∀ g ∈ pre, gathering g = false) →
    ∃ t qs', exec (.gatherWindowEnd ch) s = .next t ∧ t.grants ch.val = pre ++ .recs r qs' n false ep ent :: post ∧
      (∀ c, c ≠ ch.val → t.grants c = s.grants c) ∧ qs.Sublist qs' ∧ (qs ≠ [] → qs'.head? = qs.head?) ∧
      (∀ p ∈ qs', p ∈ qs ∨ (forHalf r.toNat p = true ∧ p.res = true)) ∧
      ((qs.tail.Pairwise fun a b => a.sel ≤ b.sel) → qs'.tail.Pairwise fun a b => a.sel ≤ b.sel) ∧
      (qs = [] ∨ (s.half r.toNat).restarts ≠ n → qs' = qs)) ∧
  ((∀ g ∈ s.grants ch.val, gathering g = false) → ∃ t, exec (.gatherWindowEnd ch) s = .next t ∧ Only [.out, .stepNo, .dlv] s t ∧
    ∀ c, t.grants c = s.grants c)

/-- WITHDRAW_SETTLE (R117, R118, R144, R335). -/
def Obligations.WithdrawsSettle : Prop :=
  ∀ (k : BitVec 18) (p : Purpose) (s : State), Up s → applying s = true → (s.dyn k.toNat).st = .issued → (s.dyn k.toNat).withdraw = some p →
  ∃ u, exec (.withdrawSettle k) s = .next (afterDlv u) ∧ (∀ j, j ≠ k.toNat → u.dyn j = s.dyn j) ∧
    let d := s.dyn k.toNat
    let e := u.dyn k.toNat
    ((∀ run, s.mc k.toNat = some run → run.launched = none) → e.withdraw = none ∧ u.mc k.toNat = none ∧
      (∀ i, i < 16 → ∀ q, q ∈ u.selQ i ∨ q ∈ u.lq i → ofSource k.toNat q = false) ∧
      (∀ c, c < 4 → ∀ g ∈ u.grants c, inGrant k.toNat g = false) ∧ (∀ q ∈ u.relay.stage, ofSource k.toNat q = false) ∧
      (p = .quarantine → e.st = .quarantined ∧ e.ev = none ∧ e.rep = none) ∧
      (∀ b, p = .cancel b → e.rep = none ∧ (d.rep = none → e.st = .idle ∧ e.ev = none) ∧
        (∀ r, d.rep = some r → (e.st = .pending ∨ e.st = .held) ∧ e.ev = some r)) ∧
      (p = .mask → d.ev.isSome → (e.st = .pending ∨ e.st = .held) ∧ e.ev.isSome ∧ e.rep = none)) ∧
    (∀ run, s.mc k.toNat = some run → run.launched.isSome = true → e.st = .issued ∧ e.ev = d.ev ∧ e.rep = d.rep ∧
      (∀ b, p = .cancel b → e.withdraw = none ∧ u.cnt (slcPage (sliceOf k) + 0x040) = s.cnt (slcPage (sliceOf k) + 0x040) + 1) ∧
      (p = .mask → e.withdraw = none) ∧ (p = .quarantine → e.withdraw = some .quarantine))

/-- LAUNCH (R126, R127, R132, R140). recData is the data of the records; afterDlv releases what waits. -/
def Obligations.LaunchesAndDeadSlots : Prop :=
  ∀ (ch : Fin 4) (s : State) (g : Grant) (rest : List Grant) (tag : BitVec 12), Up s → applying s = true → domOn s dDlv = true →
  s.log.fatal = false → s.grants ch.val = g :: rest → gathering g = false → cryWait s g = false → freeTag s ch.val = some tag →
  ∃ u, exec (.launch ch) s = .next (afterDlv u) ∧ u.grants ch.val = rest ∧
    (∀ o, g = .own o →
      (∀ k, gateDecide s 2 o.addr.toNat 64 (coloursOf s o.ten) = .lets k → let x := s.region k
        u.out = [writeOut ch.val (writeCmd o.addr 64 o.cls (regOrd x) (regNs x) (regAlloc x) (regColour x) tag) o.data] ∧
        u.outst ch.val tag.toNat = some { cls := o.cls, target := o.target, addr := o.addr, time := s.glb.now, late := false, stale := false }) ∧
      (∀ kind reg, gateDecide s 2 o.addr.toNat 64 (coloursOf s o.ten) = .fault kind reg → u.out = [] ∧ u.outst ch.val tag.toNat = none ∧
        u.cnt (dlvPage + 0x080) = s.cnt (dlvPage + 0x080) + 1 ∧
        match o.target with
        | .ring r => (u.half r.toNat).faulted = true
        | .ledger t => (u.ledgerAt t.toNat).faulted = true
        | .logEntry _ _ => u.log.faulted = true
        | .logOther => u.log.faulted = true
        | .snapshot => u.ctr.snapStopped = true)) ∧
    (∀ r qs n ep ent, g = .recs r qs n false ep ent → let h := s.half r.toNat
      let bytes := (if h.rsize32 then 32 else 16) * qs.length
      let a := ringBase (strapB s) (ringNow s r.toNat) + BitVec.ofNat 64 ((if h.rsize32 then 32 else 16) * (h.prod.toNat % halfSize s r.toNat))
      let verdict := gateDecide s 2 a.toNat bytes (coloursOf s (ringTen (ringNow s r.toNat)))
      (∀ k, qs ≠ [] → h.restarts = n → healthy s r.toNat = true → verdict = .lets k → let x := s.region k
        writeOut ch.val (writeCmd a bytes 0 (regOrd x) (regNs x) (regAlloc x) (regColour x) tag)
          (dataOf (recData s r.toNat (halfSize s r.toNat) h h.prod.toNat (qs.map (recOf s r.toNat)))) ∈ u.out ∧
        (u.half r.toNat).prod = h.prod + BitVec.ofNat 31 qs.length ∧
        (∃ w, u.outst ch.val tag.toNat = some w ∧ w.target = .ring r ∧ w.addr = a ∧ w.time = s.glb.now ∧ w.late = false) ∧
        ∀ q src e, qs = [q] → q.kind = .event src → (s.dyn src.toNat).ev = some e → (s.dyn src.toNat).rep = none →
          (s.dyn src.toNat).withdraw = none → s.mc src.toNat = none → (u.dyn src.toNat).ev = none ∧
          (u.dyn src.toNat).st = if srcMode (evEntry s src.toNat e) = 0 then .idle else .active) ∧
      (qs = [] ∨ h.restarts ≠ n ∨ healthy s r.toNat = false → u.out = [] ∧ u.outst ch.val tag.toNat = none ∧
        u.cnt (dlvPage + 0x080) = s.cnt (dlvPage + 0x080) + 1 ∧ (u.half r.toNat).prod = h.prod) ∧
      (∀ kind reg, qs ≠ [] → h.restarts = n → healthy s r.toNat = true → verdict = .fault kind reg → u.out = [] ∧
        u.outst ch.val tag.toNat = none ∧ u.cnt (dlvPage + 0x080) = s.cnt (dlvPage + 0x080) + 1 ∧ (u.half r.toNat).faulted = true))

/-- WCH_COMPLETION (R29, R48, Table 2-5) and WRITE_TIMEOUT (R29, R30). -/
def Obligations.CompletionsFreeTheirTags : Prop :=
  ∀ (ch : Fin 4) (s : State), Up s → applying s = true →
  (∀ cpl w, accepting s = true → cplParityOk cpl = true → s.outst ch.val (cplTag cpl).toNat = some w → s.noteQ ch.val = [] →
    ∃ u, exec (.wchCompletion ch cpl) s = .next (afterDlv u) ∧ u.outst ch.val (cplTag cpl).toNat = none ∧
      (∀ c t, c < 4 → t < 4096 → (c, t) ≠ (ch.val, (cplTag cpl).toNat) → (u.outst c t).isSome = (s.outst c t).isSome) ∧
      (cplStatus cpl = 0 → Only [.out, .stepNo, .dlv, .log] s u ∧ ∀ r, u.half r = s.half r) ∧
      (w.late = true → Only [.out, .stepNo, .dlv] s u) ∧
      (cplStatus cpl ≠ 0 → w.late = false →
        match w.target with
        | .ring r => w.stale = true ∨ (u.half r.toNat).faulted = true
        | .ledger t => (u.ledgerAt t.toNat).faulted = true
        | .logEntry _ _ => u.log.faulted = true
        | .logOther => u.log.faulted = true
        | .snapshot => u.ctr.snapStopped = true)) ∧
  (∀ cpl, accepting s = true → (cplParityOk cpl = false ∨ s.outst ch.val (cplTag cpl).toNat = none) → ∃ t, exec (.wchCompletion ch cpl) s = .next t ∧
    t.cnt (dlvPage + 0x0D0) = s.cnt (dlvPage + 0x0D0) + 1 ∧ ∀ c i, (s.outst c i).isSome → t.outst c i = s.outst c i) ∧
  (∀ tag w, s.outst ch.val tag.toNat = some w → w.late = false → w.time.toNat + 1000000 ≤ s.glb.now.toNat →
    ∃ u w', exec (.writeTimeout ch tag) s = .next (afterDlv u) ∧ u.outst ch.val tag.toNat = some w' ∧ w'.late = true ∧
      match w.target with
      | .ring r => w.stale = true ∨ (u.half r.toNat).faulted = true
      | .ledger t => (u.ledgerAt t.toNat).faulted = true
      | .logEntry _ _ => u.log.faulted = true
      | .logOther => u.log.faulted = true
      | .snapshot => u.ctr.snapStopped = true) ∧
  (∀ tag w, s.outst ch.val tag.toNat = some w → w.late = true ∨ s.glb.now.toNat < w.time.toNat + 1000000 →
    ∃ t, exec (.writeTimeout ch tag) s = .next t ∧ Only [.out, .stepNo] s t)

/-- TIME_PORT_VALUE (R20, R36, R155, R156, R271) and TIME_STALL (R153, R154). -/
def Obligations.TimePortAndStall : Prop :=
  ∀ (s : State), Up s →
  (∀ v p, accepting s = true → groupParity v 4 = p → s.glb.now.toNat ≤ v.toNat → let ns := v.toNat - s.glb.now.toNat
    ∃ t, exec (.timePortValue v p) s = .next t ∧ t.glb = { s.glb with now := v, ticks := s.glb.ticks + 1, stalled := false } ∧
      (s.glb.stalled = true → (∀ r ∈ s.dlv.ring.map Prod.fst, t.bucket r = 64000000) ∧ t.dlv.poolBucket = 1024000000 ∧ ∀ g, t.grun g = grunD g) ∧
      (s.glb.stalled = false → s.glb.ticks ≠ 0 → (bucketHalves s).Nodup →
        (∀ r, t.bucket r = if r ∈ bucketHalves s then min (s.bucket r + guarFill s r ns) 64000000 else s.bucket r) ∧
        t.dlv.poolBucket = min (s.dlv.poolBucket + poolFill s ns + ((guarHalves s).map fun r => s.bucket r + guarFill s r ns - 64000000).sum)
          1024000000) ∧
      (s.glb.stalled = false → s.glb.ticks = 0 → t.dlv.poolBucket = s.dlv.poolBucket ∧ ∀ r, t.bucket r = s.bucket r) ∧
      t.tly.minuteDue = if v.toNat / minuteNs ≠ s.glb.now.toNat / minuteNs ∧ s.glb.ticks ≠ 0 then some v else s.tly.minuteDue) ∧
  (∀ v p, accepting s = true → groupParity v 4 = p → v.toNat < s.glb.now.toNat →
    ∃ t, exec (.timePortValue v p) s = .next t ∧ Only [.out, .stepNo, .ctr] s t ∧ t.cnt backstepOff = s.cnt backstepOff + 1) ∧
  (∀ v p, accepting s = true → groupParity v 4 ≠ p → ∃ t, exec (.timePortValue v p) s = .next t ∧
    Only [.out, .stepNo, .freeCtr, .slc, .dlv, .gates, .fw, .twin, .tly, .ctr, .log] s t ∧ (s.log.bypass = false → Noted clsUCB (uPort pTime) t ∨ t.log.fatal = true)) ∧
  (s.glb.stalled = false → applying s = true → ∃ t, exec .timeStall s = .next t ∧ Only [.out, .stepNo, .glb, .slc, .dlv, .log] s t ∧
    t.glb = { s.glb with stalled := true, stalls := s.glb.stalls + 1, stall := true, stallTag := s.glb.stallTag + 1 } ∧
    (∀ g, (t.grun g).soaking = false) ∧ (s.log.bypass = false → Noted clsCE (uPort pTime) t) ∧
    ∀ k, (s.dyn k).st ≠ .held → t.dyn k = s.dyn k)

/-- SOAK_END (R149), PACER_PERIOD_END (R160, R162), MINUTE_BOUNDARY (R271, R272), COUNTER_SNAPSHOT_CAPTURE (R282). -/
def Obligations.SoakPeriodMinuteAndSnapshot : Prop :=
  ∀ (s : State), Up s →
  (∀ g : Fin 4096, let due := (s.grun g.val).soaking = true ∧ (s.grun g.val).endAt.toNat ≤ s.glb.now.toNat ∧ (s.grun g.val).since < s.glb.ticks
    (due → ∃ t, exec (.soakEnd g) s = .next t ∧ Only [.out, .stepNo, .slc, .dlv] s t ∧
      t.grun g.val = { s.grun g.val with soaking := false, count := 0 } ∧
      ∀ k, t.dyn k = if (s.dyn k).st = .held ∧ (s.dyn k).ev.isSome ∧ (srcGroup (evEntry s k ((s.dyn k).ev.getD (newEv s 0 none false)))).toNat = g.val
        then { s.dyn k with st := .pending } else s.dyn k) ∧
    (¬due → ∃ t, exec (.soakEnd g) s = .next t ∧ Only [.out, .stepNo] s t)) ∧
  (∀ u0 u1 u2 u3 : BitVec 32, s.glb.stalled = false → accepting s = true → s.dlv.periodStart.toNat + 16000 ≤ s.glb.now.toNat →
    let n := (s.glb.now.toNat - s.dlv.periodStart.toNat) / 16000
    let short := decide (1000 < u0.toNat + s.starved 0 ∨ 1000 < u1.toNat + s.starved 1 ∨ 1000 < u2.toNat + s.starved 2 ∨ 1000 < u3.toNat + s.starved 3)
    ∃ t, exec (.pacerPeriodEnd u0 u1 u2 u3) s = .next t ∧ Only [.out, .stepNo, .dlv, .ctr, .log] s t ∧
      t.dlv.ceil = (if short then min (s.dlv.periodRecs / n) (16 * ceilNow s) else min (s.dlv.ceil + n * ceilNow s) (16 * ceilNow s)) ∧
      t.dlv.periodStart = s.dlv.periodStart + BitVec.ofNat 64 (16000 * n) ∧ t.dlv.periodRecs = 0 ∧ t.dlv.lastShort = short ∧
      shortFlag t = (if short && !s.dlv.lastShort then (shortFlag s).hwSet else shortFlag s) ∧
      t.cnt (dlvPage + 0x0E8) = s.cnt (dlvPage + 0x0E8) + if short && !s.dlv.lastShort then 1 else 0) ∧
  (∀ b, s.tly.minuteDue = some b → s.glb.stalled = false → ∃ t, exec .minuteBoundary s = .next t ∧ t.tly.minuteDue = none ∧
    t.tly.weight = s.tly.weight ∧ t.tly.weightNow = s.tly.weight ∧
    let v := writeCkpts (drainFinals s.begin_)
    (ledgerBlocked (v.ledgerAt 0) = false → (v.ledgerAt 0).en = true → ∃ o ∈ t.dlv.own, o.cls = 2 ∧ o.target = .ledger 0 ∧
      o.addr = (v.ledgerAt 0).base + BitVec.ofNat 64 (128 * ((v.ledgerAt 0).prod.toNat % ledgerSize (v.ledgerAt 0)))) ∧
    (ledgerBlocked (v.ledgerAt 0) = false → t.tallyAt 0 = { tallyD 0 with seq := (s.tallyAt 0).seq + 1, span := s.tly.minutes }) ∧
    (ledgerBlocked (v.ledgerAt 0) = true → t.tallyAt 0 = { s.tallyAt 0 with carry := (s.tallyAt 0).carry + 1 })) ∧
  (s.ctr.snapStopped = false → s.ctr.snapInt ≠ 0 → s.glb.stalled = false → s.log.fatal = false → accepting s = true →
    s.ctr.snapNext.toNat ≤ s.glb.now.toNat → ∃ t, exec .counterSnapshotCapture s = .next t ∧ Only [.out, .stepNo, .dlv, .ctr] s t ∧
      t.ctr.snapNext = s.glb.now + snapNs s.ctr.snapInt ∧
      (snapBusy s = true → t.dlv = s.dlv ∧ t.ctr.snapSeq = s.ctr.snapSeq) ∧
      (snapBusy s = false → t.ctr.snapSeq = s.ctr.snapSeq + 1 ∧ t.dlv.own = s.dlv.own ++ (List.range 31).map fun j =>
        { cls := 4, target := .snapshot, addr := s.ctr.snapAddr + BitVec.ofNat 64 (64 * j), data := snapData s (s.ctr.snapSeq + 1) j, ten := 0,
          age := s.stepNo + 1, copy := none }))

/-- Power of domains (R40, R58, R300, R301), TEST_MODE_SELECT (R46) and AON_POWER_DOWN (R41). -/
def Obligations.PowerOfDomains : Prop :=
  (∀ (d : Fin 30) (s : State), Up s →
    let bit : BitVec 30 := 1#30 <<< d.val
    (powered s = true → bitAt s.pwr.req d.val = true → domOn s d.val = false → ∃ t, exec (.domainReady d) s = .next t ∧
      domOn t d.val = true ∧ bitAt t.pwr.ack d.val = true) ∧
    (powered s = false ∨ bitAt s.pwr.req d.val = false ∨ domOn s d.val = true → ∃ t, exec (.domainReady d) s = .next t ∧ Only [.out, .stepNo] s t) ∧
    (bitAt s.pwr.ack d.val = true → bitAt s.pwr.req d.val = false → ∃ t, exec (.domainPowerOffAck d) s = .next t ∧ Only [.out, .stepNo, .pwr] s t ∧
      t.pwr.ack = s.pwr.ack &&& ~~~bit ∧ t.pwr.on = s.pwr.on ∧
      t.pwr.req = if bitAt s.pwr.want d.val && powered s then s.pwr.req ||| bit else s.pwr.req) ∧
    (bitAt s.pwr.req d.val = true → domOn s d.val = false → bitAt s.pwr.late d.val = false → ∃ t, exec (.pwrTimeout d) s = .next t ∧
      t.pwr = { s.pwr with late := s.pwr.late ||| bit } ∧
      (s.log.bypass = false → Noted clsUCB (uDomain d.val) t ∨ t.log.fatal = true)) ∧
    (bitAt s.pwr.req d.val = false ∨ domOn s d.val = true ∨ bitAt s.pwr.late d.val = true → ∃ t, exec (.pwrTimeout d) s = .next t ∧
      Only [.out, .stepNo] s t)) ∧
  (∀ (s : State), Up s →
    let gated : Nat → State → Prop := fun d t =>
      Only [.out, .stepNo, .pwr] s t ∧ t.pwr = { s.pwr with on := s.pwr.on &&& ~~~(1#30 <<< d), req := s.pwr.req &&& ~~~(1#30 <<< d) }
    (∀ (sl : Fin 8) (c : Bool), c = (frugal s && domOn s (dSlc sl.val) && sliceQuiet s sl.val && sliceUnused s sl.val && !rtpWants s sl.val &&
        idleSince s (Tbl.get zeroD s.intake.lastApply sl.val)) →
      ∃ t, exec (.sliceIdleGate sl) s = .next t ∧ (c = true → gated (dSlc sl.val) t) ∧ (c = false → Only [.out, .stepNo] s t)) ∧
    (∀ (n : Fin 16) (c : Bool), c = (frugal s && decide (4 ≤ n.val) && domOn s (dDip n.val) && dipQuiet s n.val && !updateAhead s &&
        idleSince s (Tbl.get zeroD s.intake.lastHandshake n.val)) →
      ∃ t, exec (.dipIdleGate n) s = .next t ∧ (c = true → gated (dDip n.val) t) ∧ (c = false → Only [.out, .stepNo] s t)) ∧
    (∀ c : Bool, c = (domOn s dCry && !keyLoaded s && !cryAsked s && !s.glb.stalled && decide (s.fw.cryIdle.toNat + 100000 ≤ s.glb.now.toNat)) →
      ∃ t, exec .cryIdleRelease s = .next t ∧ (c = true → gated dCry t) ∧ (c = false → Only [.out, .stepNo] s t)) ∧
    (∀ on, ∃ t, exec (.testModeSelect on) s = .next t ∧ Only [.out, .stepNo, .glb] s t ∧ t.glb = { s.glb with test := on }) ∧
    ∃ t, exec .aonPowerDown s = .next t ∧ Only [.out, .stepNo, .pwr] s t ∧
      t.pwr = { s.pwr with phase := .down, req := 0, want := 0, on := 1, aonDnAck := true }) ∧
  ∀ (c : Instr) (s : State), s.pwr.phase = .down → c ≠ .coldStart → ∃ t, exec c s = .next t ∧ Only [.out, .stepNo] s t

/-- COLD_START (R303), SUPPLY_OK_RISE (R47, R304), CAPTURE_ENTRY (Table 17-3), FW_BOOT_READY and FW_BOOT_RETRY (R260,
R306). -/
def Obligations.ColdStartAndBoot : Prop :=
  (∀ s : State, ∃ t, exec .coldStart s = .next t ∧ Only [.pending, .out, .stepNo, .freeCtr, .intake] State.reset t ∧ t.pending = s.pending ∧
    t.out = [] ∧ (∀ q, t.queue q = []) ∧ (∀ n, t.folder n = []) ∧ t.intake.fences = [] ∧ (∀ n, t.edge n = 0) ∧
    ∀ n, (t.heldL n).map (fun h => (h.mv, h.d)) = (s.heldL n).map fun h => (h.mv, h.d)) ∧
  (∀ (x : Straps) (s : State), s.pwr.phase = .supplyWait →
    ∃ t, exec (.supplyOkRise x) s = .next t ∧ Only [.out, .stepNo, .pwr, .dlv, .twin] s t ∧ t.pwr.phase = .init ∧ t.pwr.supplyOk = true ∧
      t.pwr.straps = strapsOf x ∧ t.dlv.ceil = 16 * ceilOf t pBalanced ∧
      (∀ d ∈ bootDomains t, domOn s d = true ∨ bitAt t.pwr.req d = true ∨ bitAt t.pwr.want d = true) ∧
      (t.twin.state, t.twin.absent) = if (strapsOf x).lanes = 0 then (.solo, true) else (s.twin.state, s.twin.absent)) ∧
  (∀ (x : Straps) (s : State), s.pwr.phase = .held → s.pwr.rstWarmN = false →
    ∃ t, exec (.supplyOkRise x) s = .next t ∧ Only [.out, .stepNo, .pwr] s t ∧ t.pwr = { s.pwr with supplyOk := true, straps := strapsOf x }) ∧
  (∀ s : State, s.pwr.phase = .init → ∃ u, exec .captureEntry s = .next (rtpGoes (serveDips u)) ∧ Only [.out, .stepNo, .pwr, .twin, .link] s u ∧
    u.pwr = { s.pwr with phase := .run } ∧ (domOn s dSmt = true → (u.linkAt 0).st = .training) ∧ (domOn s dSmt = false → u.link = s.link)) ∧
  (∀ (i : FwImage) (s : State), booting s = true → imageOk i = true →
    ∃ t, exec (.fwBootReady i) s = .next t ∧ Only [.out, .stepNo, .freeCtr, .fw, .ctr] s t ∧ t.fw.phase = .ready ∧ t.fw.stage = 4 ∧
      t.fw.version = i.version ∧ t.fw.svn = i.svn ∧ t.fw.image = i.digest ∧ t.fw.manifest = i.manifest ∧ t.fw.extends_ = 3 ∧
      t.fw.chain = extend (extend (extend 0 Config.romDigest) i.digest) i.manifest ∧ t.fw.attempts = holdInc s.fw.attempts 1) ∧
  ∀ (fetch sig : Bool) (s : State), booting s = true → fetch = true ∨ sig = true →
    ∃ t, exec (.fwBootRetry fetch sig) s = .next t ∧ Only [.out, .stepNo, .freeCtr, .fw, .ctr] s t ∧
      t.fw = { s.fw with attempts := holdInc s.fw.attempts 1, stage := 5, fetchErr := fetch, sigBad := sig }

/-- WARM_RESET_ENTRY, BROWN_OUT, WARM_DRAIN_COMPLETE, WARM_RESET_RELEASE (R308–R311), PORT_RESET_NOTIFY (R18, R38) and
TACK_LEASE_EXPIRY (R297). -/
def Obligations.WarmResetAndTacks : Prop :=
  let broke := fun (p : Tack → Bool) (cause : BitVec 2) (s t : State) => ∀ n, t.tackAt n =
    if (s.tackAt n).st = .held ∧ p (s.tackAt n) = true then { s.tackAt n with st := .broken, cause, endAt := none } else s.tackAt n
  let released := fun (x : Straps) (s t : State) =>
    t.pwr.phase = .run ∧ t.pwr.last = (if s.pwr.brown then 2 else 1) ∧ t.pwr.warms = s.pwr.warms + 1 ∧ t.pwr.straps = strapsOf x ∧
    t.pwr.supplyOk = true ∧ t.pwr.rstWarmN = true ∧
    (∀ k, (t.dyn k).st ≠ .issued) ∧ (∀ q, q < 128 → t.queue q = []) ∧ (∀ l, t.lq l = []) ∧ (∀ c, t.grants c = []) ∧ (∀ r, (t.half r).resv = 0) ∧
    (∀ e x, t.logEnt e = some x → x.kind = kindCode .seamRinse) ∧ t.log.fatal = false ∧
    ((∀ p ∈ s.link, p.1 = 0 ∨ p.2.st = .down) → (∀ e, t.logEnt e = none) ∧ t.log.lseq = s.log.lseq) ∧
    (∀ off, keptCounter off = false → off / 0x8000 ≠ 4 → off ≠ dlvPage + 0x0B8 → off ≠ smrPage + 0x050 → t.cnt off = 0) ∧
    t.cnt backstepOff = s.cnt backstepOff ∧ (∀ off, 0x100000 ≤ off → off % 0x1000 ≠ 0x870 → t.cnt off = s.cnt off) ∧
    (s.fw.phase ≠ .boot → t.fw.phase = .restarting) ∧ t.gates = s.gates ∧ t.tenant = s.tenant ∧ t.tack = s.tack ∧
    t.twin.txDirty = s.twin.txDirty
  let low := fun (t : State) => t.pwr.req = 0 ∧ t.pwr.on = 1 ∧ t.twin.lnEn = 0
  ∀ (s : State), Up s →
    (powered s = true → ∃ t, exec .warmResetEntry s = .next t ∧ Only [.out, .stepNo, .pwr, .tack] s t ∧
      t.pwr = { s.pwr with phase := .drain, rstWarmN := false } ∧ broke (fun _ => true) 0 s t) ∧
    (s.pwr.phase = .held → ∃ t, exec .warmResetEntry s = .next t ∧ Only [.out, .stepNo, .pwr] s t ∧ t.pwr = { s.pwr with rstWarmN := false }) ∧
    (powered s = true → ∃ t, exec .brownOut s = .next t ∧ Only [.out, .stepNo, .pwr, .twin, .tack] s t ∧ t.pwr.phase = .held ∧ t.pwr.brown = true ∧
      t.pwr.supplyOk = false ∧ low t ∧ broke (fun _ => true) 0 s t) ∧
    (s.pwr.phase = .drain → ∃ t, exec .brownOut s = .next t ∧ Only [.out, .stepNo, .pwr, .twin] s t ∧ t.pwr.phase = .held ∧ t.pwr.brown = false ∧
      t.pwr.drainCut = true ∧ t.pwr.supplyOk = false ∧ low t) ∧
    (∀ p : Fin 64, accepting s = true → bitAt s.pwr.prstAck p.val = false →
      ∃ t, exec (.portResetNotify ⟨p, true⟩) s = .next t ∧ Only [.out, .stepNo, .pwr, .tack] s t ∧
        t.pwr = { s.pwr with prstAck := s.pwr.prstAck ||| (1#64 <<< p.val) } ∧ broke (fun k => decide (k.port.toNat = p.val)) 1 s t) ∧
    (∀ p : Fin 64, ∃ t, exec (.portResetNotify ⟨p, false⟩) s = .next t ∧ Only [.out, .stepNo, .pwr] s t ∧
      t.pwr = { s.pwr with prstAck := s.pwr.prstAck &&& ~~~(1#64 <<< p.val) }) ∧
    (∀ (n : Fin 1024) (e : BitVec 64), (s.tackAt n.val).endAt = some e → (s.tackAt n.val).st = .held → s.glb.stalled = false →
      e.toNat ≤ s.glb.now.toNat → ∃ t, exec (.tackLeaseExpiry n) s = .next t ∧ Only [.out, .stepNo, .tack] s t ∧
        ∀ j, t.tackAt j = if j = n.val then { s.tackAt j with st := .broken, cause := 2, endAt := none } else s.tackAt j) ∧
    (s.pwr.phase = .drain → (∃ t, exec (.warmDrainComplete true) s = .next t ∧ Only [.out, .stepNo, .pwr, .twin] s t ∧ t.pwr.phase = .held ∧
        t.pwr.drainCut = true ∧ low t) ∧
      ∃ t, exec (.warmDrainComplete false) s = .next t ∧ (∀ q, t.queue q = []) ∧
        ((t.pwr.phase = .held ∧ t.pwr.drainCut = false ∧ low t) ∨ (t.pwr.phase = .drain ∧ drainLeft t = true)) ∧
        ((∀ c, s.grants c = [] ∧ s.noteQ c = []) → t.pwr.phase = .held)) ∧
    (∀ x, s.pwr.phase = .held → s.pwr.supplyOk = true → ∃ u, exec (.warmResetRelease x) s = .next (rtpGoes u) ∧ released x s u) ∧
    (∀ x, s.pwr.phase = .held → s.pwr.supplyOk = false → ∃ t, exec (.warmResetRelease x) s = .next t ∧ Only [.out, .stepNo, .pwr] s t ∧
      t.pwr = { s.pwr with rstWarmN := true, straps := strapsOf x }) ∧
    ∀ x, s.pwr.phase = .held → s.pwr.rstWarmN = true → ∃ u, exec (.supplyOkRise x) s = .next (rtpGoes u) ∧ released x s u

/-- SCAN_ENTRY, SCAN_STOPPED, SCAN_END (R119–R121), DRAIN_COMPLETE (R185), MERGE_ENTRY (R186, R187). -/
def Obligations.ScansDrainsAndMerges : Prop :=
  ∀ (s : State), Up s →
  (scanCause s = true → s.glb.ranking = true → s.log.fatal = false → accepting s = true →
    ∃ u, exec .scanEntry s = .next (settleMbx u) ∧ u.glb = { s.glb with ranking := false } ∧
      ∀ q ∈ entering u ++ ungranted u, isEvent q = false) ∧
  (scanCause s = true → s.glb.ranking = false → scanDrained s = true → ∃ u, exec .scanStopped s = .next (settleMbx u) ∧
    Only [.out, .stepNo, .glb] s u ∧ u.glb = { s.glb with stopped := true }) ∧
  (scanCause s = false → s.glb.ranking = false → scanDrained s = true → accepting s = true → ∃ u, exec .scanEnd s = .next (afterDlv u) ∧
    Only [.out, .stepNo, .glb, .dlv] s u ∧ u.glb = { s.glb with scanSeq := s.glb.scanSeq + 1, stopped := false, ranking := true } ∧
    ∀ r, u.half r = { s.half r with scanOwed := if halfEn s r then some (s.glb.scanSeq + 1, s.glb.now) else none }) ∧
  (s.glb.draining = true → oldMessages s = false → ∃ u, exec .drainComplete s = .next (settleMbx u) ∧ Only [.out, .stepNo, .glb] s u ∧
    u.glb = { s.glb with draining := false, merging := s.glb.merging && decide (s.slc.shadow ≠ []) }) ∧
  (∀ (k : BitVec 18) (stolen : Bool) (sh : Shadow), s.glb.draining = false → accepting s = true → s.shadow k.toNat = some sh →
    (domOn s (dSlc (sliceOf k)) = true → carriesUsed s + carriesNeeded s k.toNat sh.epoch ≤ 16384 →
      ∃ u, exec (.mergeEntry k stolen) s = .next (settleMbx u) ∧ Only [.out, .stepNo, .glb, .intake, .slc, .ctr] s u ∧
        (∀ j, u.main j = if j = k.toNat then sh.entry else s.main j) ∧ (∀ j, u.shadow j = if j = k.toNat then none else s.shadow j) ∧
        (∀ j, j ≠ k.toNat → u.dyn j = s.dyn j) ∧ u.glb.merging = (s.glb.merging && decide (u.slc.shadow ≠ [])) ∧
        u.intake.fences = s.intake.fences.map (carryFence k.toNat sh.epoch (s.main k.toNat)) ∧
        (∀ e, (s.dyn k.toNat).ev = some e → e.capture = false → (u.dyn k.toNat).st = (s.dyn k.toNat).st ∧
          (u.dyn k.toNat).ev = some (if e.carry = none ∧ atOrAfter e.epoch sh.epoch = false then { e with carry := some (s.main k.toNat) } else e)) ∧
        (stolen = true → u.cnt (slcPage (sliceOf k) + 0x048) = s.cnt (slcPage (sliceOf k) + 0x048) + 1)) ∧
    (domOn s (dSlc (sliceOf k)) = false → ∃ t, exec (.mergeEntry k stolen) s = .next t ∧ Only [.out, .stepNo, .pwr] s t ∧
      (bitAt t.pwr.req (dSlc (sliceOf k)) = true ∨ bitAt t.pwr.want (dSlc (sliceOf k)) = true)))

/-- ERROR_DETECTED (R283, R285, Table 16-2) and SCRUB_WORD (R332). -/
def Obligations.ErrorsHaveTheirFirstOutcome : Prop :=
  let happened := fun (k : ErrKind) (w : ErrUnit) (s v : State) =>
    let n := w.val.toNat
    (s.log.bypass = false → k ≠ .logUe → Noted (kindClass k) w v ∨ v.log.fatal = true) ∧
    match k with
    | .srcUe => (v.dyn (n % 262144)).st = .quarantined ∨ ((v.dyn (n % 262144)).st = .issued ∧ (v.dyn (n % 262144)).withdraw = some .quarantine)
    | .ringUe => (v.half (n % 32768)).faulted = true
    | .writeErr =>
      if w.typ = 2 then (v.half (n % 32768)).faulted = true
      else if bitAt w.val 8 then v.log.faulted = true else (v.ledgerAt (n % 256)).faulted = true
    | .regionUe => unitRegion w.val ∈ v.gates.qRegion
    | .slotUe => (v.slot (n % 65536) = none ∨ v.slot (n % 65536) = some .retired) ∧
      ∀ j e, (v.dyn j).ev = some e ∨ (v.dyn j).rep = some e → e.slot ≠ some (n % 65536)
    | .entryUe => let i := (fld w.val 0 13).toNat
      (fld w.val 14 2 = 0 → i ∈ v.dlv.qMcast) ∧ (fld w.val 14 2 = 1 → i ∈ v.dlv.qRemote) ∧ (fld w.val 14 2 = 2 → i ∈ v.dlv.qGroup)
    | .keyUe => n % 256 ∈ v.fw.qKey
    | .tallyUe => (v.tallyAt (n % 256)).accepted = BitVec.allOnes 48 ∧ (v.tallyAt (n % 256)).sat = true
    | .journalUe => (v.mailbox (n % 512)).journal = none
    | .queueUe => (∀ l, l < 16 → v.selQ l = [] ∧ v.lq l = [] ∧ ∀ q ∈ v.paceQ l, ∃ src m, q.kind = .residue src m) ∧
      (∀ q ∈ v.dlv.members, ∃ src m, q.kind = .residue src m) ∧ v.dlv.hamper = [] ∧ v.relay.stage = []
    | .fwHalt => v.fw.phase = .halted
    | .controlUe => v.log.fatal = true ∧ (s.log.fatal = false → v.log.fault = true)
    | .logUe => v.log.bypass = true ∧ ∀ e, v.logEnt e = none
    | _ => True
  ∀ (w : ErrUnit) (s : State), Up s →
    (∀ k detail, aonUp s = true → w.typ.toNat ∈ kindUnits k → k ≠ .coreDfault → k ≠ .coreLockstep → k ≠ .coreWdog →
      ∃ v, exec (.errorDetected k w detail) s = .next (afterDlv v) ∧ happened k w s v) ∧
    (∀ k ∈ [ErrKind.coreDfault, .coreLockstep, .coreWdog], ∀ detail, aonUp s = true → w.typ = 0xD → coreRuns s = true →
      exec (.errorDetected k w detail) s = .next (coreFails (logCEKind k uCore detail s.begin_))) ∧
    ∀ (store word : DW) (log : Bool),
      (∃ t, exec (.scrubWord ⟨w, log⟩ store word .clean) s = .next t ∧ Only [.out, .stepNo] s t) ∧
      (∀ x, scrubbed s w log = false → ∃ t, exec (.scrubWord ⟨w, log⟩ store word x) s = .next t ∧ Only [.out, .stepNo] s t) ∧
      (∀ syn, scrubbed s w log = true → ∃ t, exec (.scrubWord ⟨w, log⟩ store word (.correctable syn)) s = .next t ∧ Only [.out, .stepNo, .log] s t ∧
        (s.log.bypass = false → Noted clsCE w t)) ∧
      ∀ syn, scrubbed s w log = true → ∃ v, exec (.scrubWord ⟨w, log⟩ store word (.uncorrectable syn)) s = .next (afterDlv v) ∧
        happened (scrubKind w log) (if scrubKind w log = .queueUe then uBlock else w) s v

/-- ERROR_RING_COPY (R290), CE_AUTO_ACK (R286), LOST_SUMMARY (R287), CORE_FAULT, CORE_WDOG, FW_RESTART_READY (R294,
R295), MBX_SLOW (R175). -/
def Obligations.LogCopiesAndCoreFaults : Prop :=
  ∀ (s : State), Up s →
  (∀ c rest, aonUp s = true → errRingOn s = true → s.log.faulted = false → errRingFull s = false → s.log.fatal = false → s.log.copyQ = c :: rest →
    ∃ t, exec .errorRingCopy s = .next t ∧ Only [.out, .stepNo, .dlv, .log] s t ∧ t.log.copyQ = rest ∧
      ∀ w g, copyWords s c = some (w, g) → t.log.prod = s.log.prod + 1 ∧
        t.dlv.own = s.dlv.own ++
          [{ cls := 3, target := g, addr := errRingAddr s, data := dataOf w, ten := 0, age := s.stepNo + 1, copy := some c }]) ∧
  (∀ (e : Fin 64) x, s.logEnt e.val = some x → x.cls = clsCE → x.form = 0 → x.acked = false → s.glb.stalled = false →
    x.last.toNat + 1000000 ≤ s.glb.now.toNat → ∃ t, exec (.ceAutoAck e) s = .next t ∧ Only [.out, .stepNo, .log] s t ∧
      (errRingOn s = true → t.logEnt e.val = some { x with acked := true, copyNo := s.log.copyCtr + 1, copyOk := false } ∧
        s.log.copyQ.Sublist t.log.copyQ ∧ .entry e.val (s.log.copyCtr + 1) ∈ t.log.copyQ) ∧
      (errRingOn s = false → t.logEnt e.val = none)) ∧
  (∀ e, s.log.bypass = false → anyLost s = true → freeEntry s = some e → ∃ t, exec .lostSummary s = .next t ∧ Only [.out, .stepNo, .log] s t ∧
    t.lostOf 0 = 0 ∧ t.lostOf 1 = 0 ∧ t.lostOf 2 = 0 ∧ (∀ j, j ≠ e → t.logEnt j = s.logEnt j) ∧
    (errRingOn s = true → ∃ x, t.logEnt e = some x ∧ x.form = 0xF ∧ x.cls = lostClass s ∧
      s.log.copyQ.Sublist t.log.copyQ ∧ .entry e (s.log.copyCtr + 1) ∈ t.log.copyQ) ∧
    (errRingOn s = false → t.logEnt e = none)) ∧
  (∀ c, (c = .coreWdog ∨ ∃ f, c = .coreFault f) → powered s = true → domOn s dMgt = true →
    (s.fw.phase = .ready ∨ s.fw.phase = .exchanging → (recentRestarts s).length < 2 → ∃ t, exec c s = .next t ∧
      t.fw.phase = .restarting ∧ t.fw.restarts = s.glb.now :: recentRestarts s) ∧
    (s.fw.phase = .ready ∨ s.fw.phase = .exchanging → 2 ≤ (recentRestarts s).length → ∃ t, exec c s = .next t ∧ t.fw.phase = .halted) ∧
    (s.fw.phase = .boot ∨ s.fw.phase = .restarting → ∃ t, exec c s = .next t ∧ Only [.out, .stepNo, .log] s t ∧
      (s.log.bypass = false → Noted clsCE uCore t))) ∧
  (s.fw.phase = .restarting → powered s = true → domOn s dMgt = true → (∃ u, exec (.fwRestartReady true) s = .next (settleMbx u) ∧ u.fw.phase = .ready) ∧
    ∃ t, exec (.fwRestartReady false) s = .next t ∧ t.fw.phase = .halted) ∧
  (∀ m, (s.mailbox (mbxKey m)).busy ≠ .idle → (s.mailbox (mbxKey m)).slow = false → fwReady s = true →
    ∃ t, exec (.mbxSlow m) s = .next t ∧ Only [.out, .stepNo, .mbx, .log] s t ∧
      (∀ j, t.mailbox j = if j = mbxKey m then { s.mailbox j with slow := true } else s.mailbox j) ∧
      (s.log.bypass = false → Noted clsCE (uMbx m) t))

/-- FLIT_RECEIVED on an UP link (R216–R221, R223). arriving is the flit that the row completes; settleMbx releases
what waits. -/
def Obligations.FlitsAreReceived : Prop :=
  ∀ (rx : RxFlit) (l : Seam) (f : BitVec 1024) (s : State), Up s → arriving s rx = some (l, f) → linkUp s l = true →
  let x := lk s l
  let unseq := flitMatches f unseqPre && (flType f = 0 || flType f = 2)
  ∃ u, exec (.flitReceived rx) s = .next (settleMbx u) ∧
    (unseq = true → flType f = 0 → lk u l = takeHeader f x) ∧
    (unseq = true → flType f = 2 → fld (flPayload f) 0 8 = (3 : Byte) →
      lk u l = { takeHeader f x with crReq := payDw (flPayload f) 1, crRsp := payDw (flPayload f) 2 }) ∧
    (∀ g, unseq = true → flType f = 2 → fld (flPayload f) 0 8 = (1 : Byte) →
      (takeHeader f x).replay.find? (fun g => g.seq = fld (payDw (flPayload f) 1) 0 12) = some g →
      (g.times < 7 → (fld (payDw (flPayload f) 1) 0 12 : BitVec 12) ∈ (lk u l).replayQ ∨ (fld (payDw (flPayload f) 1) 0 12 : BitVec 12) ∈ (lk u l).resendQ) ∧
      (7 ≤ g.times → (lk u l).due = true)) ∧
    (∀ h, unseq = false → holeOf x f = some h → (lk u l).exp = x.exp ∧ (lk u l).holes = x.holes.erase h ∧ (lk u l).bad = 0 ∧ (lk u l).ctl = x.ctl) ∧
    (∀ j, unseq = false → holeOf x f = none → aheadOf x l f = some j → (j = 0 ∧ x.holes = []) ∨ holdRoom s l = true →
      let missing := (List.range j).map fun k => x.exp + BitVec.ofNat 12 k
      (lk u l).exp = x.exp + BitVec.ofNat 12 j + 1 ∧ (lk u l).holes = x.holes ++ missing ∧ (lk u l).bad = 0 ∧
        (lk u l).ctl = x.ctl ++ missing.map nakPayload ∧ u.cnt (linkPage l + 0x028) = s.cnt (linkPage l + 0x028) + BitVec.ofNat 48 j) ∧
    (unseq = false → holeOf x f = none →
      (aheadOf x l f = none ∨ (holdRoom s l = false ∧ ∃ j, aheadOf x l f = some j ∧ ¬(j = 0 ∧ x.holes = []))) →
      (x.proving = false → lk u l = { x with bad := min 33 (x.bad + 1), due := decide (32 ≤ x.bad) } ∧
        u.cnt (linkPage l + 0x038) = s.cnt (linkPage l + 0x038) + 1) ∧
      (x.proving = true → x.fails < 2 → lk u l = retrained { x with fails := x.fails + 1 }))

/-- FLIT_TRANSMIT (R217, R219, R222), ACK_TIMER (R219), DARN_SEND (R221), HEARTBEAT_SEND (R199). headed and headerSent
say what a header takes. -/
def Obligations.FlitsAreSent : Prop :=
  ∀ (l : Seam) (s : State), Up s →
  let x := lk s l
  let replay := x.replayQ.findSome? fun q => x.replay.find? fun g => g.seq = q
  let again := x.resendQ.findSome? fun q => x.replay.find? fun g => g.seq = q
  (linkUp s l = true →
    (∀ p r, x.ctl = p :: r → ∃ t, exec (.flitTransmit l) s = .next t ∧ lk t l = headerSent { x with ctl := r } ∧
      Sent l (headed x 2 false p unseqPre) s t) ∧
    (∀ f, x.ctl = [] → again = some f → ∃ t, exec (.flitTransmit l) s = .next t ∧
      lk t l = headerSent { x with resendQ := x.resendQ.erase f.seq } ∧ Sent l (headed x 1 f.rsp f.payload (seqPre f.seq)) s t ∧
      t.cnt (linkPage l + 0x030) = s.cnt (linkPage l + 0x030)) ∧
    (∀ f, x.ctl = [] → again = none → replay = some f → ∃ t, exec (.flitTransmit l) s = .next t ∧
      lk t l = headerSent { x with replayQ := x.replayQ.erase f.seq,
                                   replay := x.replay.map fun g => if g.seq = f.seq then { g with times := g.times + 1 } else g } ∧
      Sent l (headed x 1 f.rsp f.payload (seqPre f.seq)) s t ∧ t.cnt (linkPage l + 0x030) = s.cnt (linkPage l + 0x030) + 1) ∧
    (∀ p fr q, x.ctl = [] → again = none → replay = none → replayRoom s l = true → creditsOf x true = true → nextPayload x.fragRsp x.txRsp = some (p, fr, q) →
      ∃ t, exec (.flitTransmit l) s = .next t ∧ Sent l (headed x 1 true p (seqPre x.txSeq)) s t ∧
        lk t l = headerSent { x with fragRsp := fr, txRsp := q, txSeq := x.txSeq + 1, sentRsp := x.sentRsp + 1,
                                     replay := x.replay ++ [{ seq := x.txSeq, rsp := true, payload := p, times := 0 }] }) ∧
    (∀ p fr q, x.ctl = [] → again = none → replay = none → replayRoom s l = true → creditsOf x true = false ∨ nextPayload x.fragRsp x.txRsp = none →
      creditsOf x false = true → nextPayload x.fragReq x.txReq = some (p, fr, q) →
      ∃ t, exec (.flitTransmit l) s = .next t ∧ Sent l (headed x 1 false p (seqPre x.txSeq)) s t ∧
        lk t l = headerSent { x with fragReq := fr, txReq := q, txSeq := x.txSeq + 1, sentReq := x.sentReq + 1,
                                     replay := x.replay ++ [{ seq := x.txSeq, rsp := false, payload := p, times := 0 }] }) ∧
    (∃ t, exec (.darnSend l) s = .next t ∧ lk t l = headerSent x ∧ Sent l (headed x 2 false (darnPayload x) unseqPre) s t) ∧
    (l = .twin → ∃ t, exec .heartbeatSend s = .next t ∧ lk t l = headerSent x ∧ Sent l (headed x 2 false (heartbeatPayload s) unseqPre) s t) ∧
    (0 < x.sinceAck → ∃ t, exec (.ackTimer l) s = .next t ∧ (lk t l).ackDue = false ∧ (lk t l).sinceAck = 0 ∧ (lk t l).ackSent = ackOf x ∧ t.out ≠ [])) ∧
  (linkOn s l = true → isTraining x.st = true → (l = .twin → s.twin.lanes ≠ 0) → (∀ b st, l = .relay b st → (routeOf s b).isSome) →
    ∃ t, exec (.flitTransmit l) s = .next t ∧ lk t l = headerSent x ∧ Sent l (headed x 2 false (trainPayload s l x.trained) unseqPre) s t)

/-- REPLAY_TIMEOUT, RETRAIN_START, RETRAIN_FAIL, GRACE_END_RINSE (R217, R223, R224), TRAINING_TIMEOUT, TRAINING_RETRY
(R195), SESSION_OPEN, SESSION_CLOSE (R229), RELAY_PATH_RETRY (R243), LANE_DROP, LANE_ADD, SMT_LN_RDY_RISE (R43, R228).
-/
def Obligations.LinksChangeState : Prop :=
  (∀ (l : Seam) (s : State), Up s →
    let x := lk s l
    (∀ seq f, linkUp s l = true → x.replay.find? (fun g => g.seq = seq) = some f → ∃ t, exec (.replayTimeout l seq) s = .next t ∧
      (7 ≤ f.times → lk t l = retrained x) ∧ (f.times < 7 → (seq ∈ (lk t l).replayQ ∨ seq ∈ (lk t l).resendQ) ∧ (lk t l).replay = x.replay)) ∧
    (linkOn s l = true → x.st = .up → x.due = true → ∃ t, exec (.retrainStart l) s = .next t ∧ Only [.out, .stepNo, .link, .ctr, .log, .twin] s t ∧
      lk t l = retrained x ∧ t.cnt (linkPage l + 0x040) = s.cnt (linkPage l + 0x040) + 1 ∧ (s.log.bypass = false → Noted clsCE (linkUnit s l) t)) ∧
    (linkOn s l = true → x.st = .retrain → ∃ t, exec (.retrainFail l) s = .next t ∧
      (x.fails < 2 → lk t l = retrained { x with fails := x.fails + 1 }) ∧
      (2 ≤ x.fails → (lk t l).st = .grace ∧ t.cnt (linkPage l + 0x048) = s.cnt (linkPage l + 0x048) + 1 ∧
        (l = .twin → hasPartner s = true → t.twin.state = if s.twin.lease then .solo else .alone))) ∧
    (linkOn s l = true → x.st = .grace → ∃ t, exec (.graceEndRinse l) s = .next t ∧ Only [.out, .stepNo, .link, .ctr, .log, .twin] s t ∧
      lk t l = { rinsed l x 0 0 with st := .training, trained := false, resume := false } ∧
      t.cnt (linkPage l + 0x050) = s.cnt (linkPage l + 0x050) + 1)) ∧
  (∀ (b : BitVec 11) (st : Bool) (s : State), Up s →
    let l := Seam.relay b st
    (linkOn s l = true → (lk s l).st = .down → (routeOf s b).isSome → queuedFor s b st = true → mayOpen s = true →
      ∃ t, exec (.sessionOpen b st) s = .next t ∧ (lk t l).st = .training ∧ t.out.length = 1) ∧
    (linkUp s l = true → sessionIdle s b st = true → ∃ t, exec (.sessionClose b st) s = .next t ∧ (lk t l).st = .down ∧
      Sent l (headed (lk s l) 2 false closePayload unseqPre) s t) ∧
    (linkOn s l = true → pathFailed s b st = true → (routeOf s b).isSome → (lk s l).st = .training ∨ ((lk s l).st = .down ∧ mayOpen s = true) →
      ∃ t, exec (.relayPathRetry b st) s = .next t ∧ (lk t l).st = .training ∧ t.out.length = 1) ∧
    (linkOn s l = true → pathFailed s b st = true → (routeOf s b).isSome → (lk s l).st = .up →
      ∃ t, exec (.relayPathRetry b st) s = .next t ∧ pathFailed t b st = false)) ∧
  ∀ (n : Fin 8) (s : State), Up s → linkOn s .twin = true →
    let x := lk s .twin
    let bit := laneBit n.val
    (s.twin.state = .training → x.st ≠ .up → x.mismatch = false → ∃ t, exec .trainingTimeout s = .next t ∧
      Only [.out, .stepNo, .twin, .link] s t ∧ t.twin = { s.twin with state := .solo, absent := true } ∧ lk t .twin = linkD 0) ∧
    (fwReady s = true → s.twin.absent = true ∨ aloneSolo s = true → x.st = .down ∨ x.st = .training → ∃ t, exec .trainingRetry s = .next t ∧
      (lk t .twin).st = .training ∧ t.twin.lnEn = permitted s) ∧
    (bitAt s.twin.lnRdy n.val = true → x.st = .up → ∃ t, exec (.laneDrop n) s = .next t ∧ t.twin.lanes = s.twin.lanes ∧
      t.twin.lnRdy = (if laneBadNow s n.val then s.twin.lnRdy else s.twin.lnRdy &&& ~~~bit) ∧
      (bitAt (wantLanes s) n.val = true → wantLanes s &&& ~~~bit ≠ 0 → wantLanes t = wantLanes s &&& ~~~bit ∧
        t.twin.ownDrop = s.twin.ownDrop ||| bit ∧ (lk t .twin).ctl = x.ctl ++ [laneDropPayload (wantLanes s &&& ~~~bit)] ∧
        t.cnt (smtPage + 0x060) = s.cnt (smtPage + 0x060) + 1) ∧
      (bitAt (wantLanes s) n.val = false ∨ wantLanes s &&& ~~~bit = 0 → wantLanes t = wantLanes s ∧ (lk t .twin).ctl = x.ctl)) ∧
    (bitAt s.twin.lnRdy n.val = true → x.st = .retrain →
      let leaves := bitAt s.twin.lanes n.val = true ∧ bitAt s.twin.deskewed n.val = false ∧ s.twin.lanes &&& ~~~bit ≠ 0
      ∃ t, exec (.laneDrop n) s = .next t ∧
        (leaves → t.twin.lanes = s.twin.lanes &&& ~~~bit ∧ t.twin.rxLanes = s.twin.rxLanes &&& ~~~bit ∧
          t.twin.ownDrop = s.twin.ownDrop ||| bit ∧ t.cnt (smtPage + 0x060) = s.cnt (smtPage + 0x060) + 1) ∧
        (¬leaves → Only [.out, .stepNo] s t)) ∧
    (mayAdd s n.val = true → ∃ t, exec (.laneAdd n) s = .next t ∧ t.twin.lanes = s.twin.lanes ∧
      (bitAt s.twin.failedTrain n.val = true → Only [.out, .stepNo, .twin] s t ∧ t.twin = { s.twin with failedTrain := s.twin.failedTrain &&& ~~~bit }) ∧
      (bitAt s.twin.failedTrain n.val = false → wantLanes t = (wantLanes s ||| bit) &&& ~~~s.twin.peerDrop ∧
        t.twin.ownDrop = s.twin.ownDrop &&& ~~~bit ∧ (lk t .twin).ctl = x.ctl ++ [laneAddPayload (wantLanes s ||| bit)] ∧
        t.cnt (smtPage + 0x068) = s.cnt (smtPage + 0x068) + 1)) ∧
    (∀ set, linkUp s .twin = true → s.twin.txNext = some set → x.ctl ≠ [] → ∃ t, exec (.flitTransmit .twin) s = .next t ∧
      (s.twin.txPos = 0 → t.twin.lanes = set ∧ t.twin.txNext = none ∧
        Out.lanes ((lanesOf (s.twin.lanes &&& set)).map fun n => (n, markerWord s set)) ∈ t.out) ∧
      (s.twin.txPos ≠ 0 → t.twin.lanes = s.twin.lanes ∧ t.twin.txNext = some set)) ∧
    (bitAt s.twin.lnEn n.val = true → bitAt s.twin.lnRdy n.val = false → ∃ t, exec (.smtLnRdyRise n) s = .next t ∧
      t.twin = { s.twin with lnRdy := s.twin.lnRdy ||| bit } ∧ t.out = [.lanes [(n.val, trainingWord t n.val)]])

/-- MIRROR_RECEIVED, DIRTY_RECEIVED, SNAPSHOT_RECEIVED, FORWARD_RECEIVED (R196, R203, R225), MIRROR_SEND,
SNAPSHOT_SEND (R198). sayDone and settleMbx are what the model releases then. -/
def Obligations.MirrorMessagesTakeEffect : Prop :=
  ∀ (s : State), Up s → twinOn s = true →
  let left := (rxOf (lk s .twin) false).eraseP fun m => fwTakes m.m = false
  let nextState := fun (t : State) => if s.twin.state = .degraded ∧ t.twin.txDirty = [] ∧ mirrorCount t.twin.mirrorQ < 512 then Pair.paired else s.twin.state
  (∀ src st, headRx s .twin false false = some (.mirror src st) → ∃ t, exec .mirrorReceived s = .next t ∧ Only [.out, .stepNo, .twin, .link] s t ∧
    rxOf (lk t .twin) false = left ∧ ∀ j, t.viewOf j = if aloneSolo s = false ∧ j = src.toNat then st else s.viewOf j) ∧
  (∀ g, headRx s .twin false false = some (.dirty g) → ∃ t, exec .dirtyReceived s = .next t ∧ Only [.out, .stepNo, .twin, .link] s t ∧
    rxOf (lk t .twin) false = left ∧ t.twin = if aloneSolo s then s.twin else { s.twin with rxDirty := addRange g.toNat s.twin.rxDirty }) ∧
  (∀ g v, headRx s .twin false false = some (.snapshot g v) →
    (aloneSolo s = true → ∃ t, exec .snapshotReceived s = .next t ∧ Only [.out, .stepNo, .link] s t ∧ rxOf (lk t .twin) false = left) ∧
    (aloneSolo s = false → ∃ u, exec .snapshotReceived s = .next (settleMbx (sayDone u)) ∧ Only [.out, .stepNo, .twin, .link] s u ∧
      rxOf (lk u .twin) false = left ∧ u.twin.rxDirty = s.twin.rxDirty.erase g.toNat ∧
      (∀ i, i < 64 → u.viewOf (64 * g.toNat + i) = fld v (2 * i) 2) ∧ ∀ j, j / 64 ≠ g.toNat → u.viewOf j = s.viewOf j)) ∧
  (∀ b, headRx s .twin false false = some (.forward b) → s.log.fatal = false →
    let m := forwardedMsg s b
    let room := m.kind ≠ kFence ∨ s.intake.fences.length < 64
    (room → domOn s (dSlc (sliceOf m.src)) = true → ∃ u, exec .forwardReceived s = .next (settleMbx (serveDips (fencesGo u))) ∧
      let v := bump (smtPage + 0x020) (takeRx .twin false false s.begin_)
      u.slc = (applyMsg m (if m.kind = kFence then fenceIntake m v else v)).slc ∧ v.slc = s.slc ∧ rxOf (lk v .twin) false = left ∧
        v.cnt (smtPage + 0x020) = s.cnt (smtPage + 0x020) + 1) ∧
    (room → domOn s (dSlc (sliceOf m.src)) = false → ∃ t, exec .forwardReceived s = .next t ∧ Only [.out, .stepNo, .pwr] s t ∧
      (bitAt t.pwr.req (dSlc (sliceOf m.src)) = true ∨ bitAt t.pwr.want (dSlc (sliceOf m.src)) = true)) ∧
    (¬room → ∃ t, exec .forwardReceived s = .next t ∧ Only [.out, .stepNo] s t)) ∧
  (twinUp s = true → mirroring s = true →
    (∀ g r, s.twin.notice = g :: r → ∃ t, exec .mirrorSend s = .next t ∧ Only [.out, .stepNo, .twin, .link] s t ∧ t.twin.notice = r ∧
      t.twin.mirrorQ = s.twin.mirrorQ ∧ (lk t .twin).txReq = (lk s .twin).txReq ++ [.dirty (BitVec.ofNat 12 g)] ∧ t.twin.state = nextState t) ∧
    (∀ m r, s.twin.notice = [] → s.twin.mirrorQ = m :: r → ∃ t, exec .mirrorSend s = .next t ∧ Only [.out, .stepNo, .twin, .link, .ctr] s t ∧
      t.twin.mirrorQ = r ∧ (lk t .twin).txReq = (lk s .twin).txReq ++ [m] ∧ t.twin.state = nextState t ∧
      let c := smtPage + (match m with | .mirror _ _ => 0x000 | _ => 0x010)
      t.cnt c = s.cnt c + 1)) ∧
  (∀ g r, twinUp s = true → snapshotsGo s = true → s.twin.txDirty = g :: r → ∃ t, exec .snapshotSend s = .next t ∧
    Only [.out, .stepNo, .twin] s t ∧ t.twin.txDirty = r ∧ t.twin.mirrorQ = s.twin.mirrorQ ++ [.snapshot (BitVec.ofNat 12 g) (rangeStates s g)] ∧
    t.twin.state = nextState t ∧ t.twin.snapPhase = (t.twin.state ≠ .paired))

/-- PREPARE_RECEIVED, VOTE_RECEIVED, VOTE_TIMEOUT, DECIDE_RECEIVED, DECIDE_ACK_RECEIVED (R179–R182, Tables 10-2 and
10-3). v is the state with the message taken. -/
def Obligations.CommitMessagesTakeEffect : Prop :=
  ∀ (s : State) (dws : List DW), Up s →
  (fwHead s false 0x01 = some dws →
    let v := tookFw false s
    let e : BitVec 16 := fld (dwAt dws 0) 0 16
    let w := readBlocks (dws.length + 1) (dws.drop 1) (some (.txn Txn.empty))
    let sleeps := (wantsDips s w && dipAsleep s) = true
    let free := peerCmd dws = none ∧ ¬sleeps
    let may := free ∧ v.twin.state ≠ .rewash ∧ isPaired v = true ∧ (coordinating v e && !strapB v) = false
    (aloneSolo s = true → ∃ t, exec .prepareReceived s = .next t ∧ t = v) ∧
    (aloneSolo s = false → peerCmd dws = none → sleeps → exec .prepareReceived s = .next (wakeDips s.begin_)) ∧
    (∀ a, aloneSolo s = false → peerCmd dws = some (.witness a) → ∃ u, exec .prepareReceived s = .next (settleMbx u) ∧
      u.twin.witness = some a ∧ u.fw.asked = s.fw.asked ++ [{ src := none, epoch := e }]) ∧
    (∀ src b, aloneSolo s = false → peerCmd dws = some (.mask src b) → domOn s (dSlc (sliceOf src)) = true →
      ∃ u, exec .prepareReceived s = .next (settleMbx u) ∧ u.fw.asked = s.fw.asked ++ [{ src := some src, epoch := e }] ∧
        ((s.dyn src.toNat).st ≠ .quarantined → u.slc = (maskOp src.toNat b v).slc)) ∧
    (free → s.twin.state = .rewash → ∃ t, exec .prepareReceived s = .next t ∧ VotedNo e stBusy s t) ∧
    (free → s.twin.state = .training → ∃ t, exec .prepareReceived s = .next t ∧ VotedNo e stTwin s t) ∧
    (free → isPaired s = true → (coordinating s e && !strapB s) = true → ∃ t, exec .prepareReceived s = .next t ∧ VotedNo e 0x80 s t) ∧
    (may → v.glb.draining = true ∨ v.glb.merging = true → ∃ t, exec .prepareReceived s = .next t ∧ VotedNo e stBusyMerging s t) ∧
    (may → v.glb.draining = false → v.glb.merging = false →
      (w = none → ∃ t, exec .prepareReceived s = .next t ∧ VotedNo e stBadArg s t) ∧
      (∀ x, w = some (.txn x) →
        (admission v x (ceilNow v) = false → ∃ t, exec .prepareReceived s = .next t ∧ VotedNo e stAdmission s t) ∧
        (admission v x (ceilNow v) = true → recheck v none x = false → ∃ t, exec .prepareReceived s = .next t ∧ VotedNo e stBadArg s t) ∧
        (admission v x (ceilNow v) = true → recheck v none x = true → ∃ t, exec .prepareReceived s = .next t ∧
          t.fw = { s.fw with prepared := some { what := .txn x, epoch := e } } ∧
          (t.linkAt 0).txRsp = (s.linkAt 0).txRsp ++ [.fw 0x02 [at32 e 0 ||| at32 (b1 true) 16]])) ∧
      (∀ x, w = some (.destroy x) →
        ((sealing v).contains x = true → ∃ t, exec .prepareReceived s = .next t ∧ VotedNo e stBusy s t) ∧
        ((sealing v).contains x = false → ∃ u, exec .prepareReceived s = .next (afterDlv u) ∧ u.fw.voteDestroy = some (x, e))))) ∧
  (∀ c, fwHead s true 0x02 = some dws → s.fw.commit = some c → c.stage = .vote → c.epoch = fld (dwAt dws 0) 0 16 →
    (bitAt (dwAt dws 0) 16 = true → ∃ u, exec .voteReceived s = .next (afterDlv u) ∧ u.glb.epoch = s.glb.epoch + 1 ∧ u.glb.draining = true ∧
      u.fw.commit = some { c with stage := .ack } ∧ u.fw.committed = true ∧
      (u.linkAt 0).txReq = (s.linkAt 0).txReq ++ [.fw 0x03 [(s.glb.epoch + 1).setWidth 32]]) ∧
    (bitAt (dwAt dws 0) 16 = false → ∃ u, exec .voteReceived s = .next (settleMbx u) ∧ u.fw.commit = none ∧ u.glb = s.glb ∧
      (fld (dwAt dws 0) 24 8 = (0x80 : Byte) → ∀ x, c.what = .txn x → (s.mailbox (mbxKey c.mbx)).busy = .commit →
        (u.mailbox (mbxKey c.mbx)).busy = .commitWait))) ∧
  (∀ x rest m, fwHead s true 0x02 = some dws → s.fw.commit = none → s.fw.asks = x :: rest → x.epoch = fld (dwAt dws 0) 0 16 → x.mbx = some m →
    ∃ u, exec .voteReceived s = .next (settleMbx u) ∧ u.fw.asks = rest ∧
      ∀ src, (s.mailbox (mbxKey m)).busy = .mask src true → (u.mailbox (mbxKey m)).busy = .mask src false) ∧
  (∀ c, s.fw.commit = some c → c.stage = .vote → c.sentAt.toNat + 1000000 ≤ s.glb.now.toNat → fwReady s = true →
    ∃ u, exec .voteTimeout s = .next (settleMbx u) ∧ u.glb = s.glb ∧
      u.fw.commit = if s.twin.lease && s.twin.word.isSome then some { c with stage := .renew } else none) ∧
  (∀ p, fwHead s false 0x03 = some dws → s.fw.prepared = some p → aloneSolo s = false → p.epoch = fld (dwAt dws 0) 0 16 →
    ∃ u, exec .decideReceived s = .next (afterDlv u) ∧ u.glb.epoch = p.epoch ∧ u.glb.draining = true ∧ u.fw.prepared = none ∧
      (u.linkAt 0).txRsp = (s.linkAt 0).txRsp ++ [.fw 0x04 [p.epoch.setWidth 32]]) ∧
  (∀ c, fwHead s true 0x04 = some dws → s.fw.commit = some c → c.stage = .ack → c.epoch = fld (dwAt dws 0) 0 16 →
    ∃ u, exec .decideAckReceived s = .next (settleMbx u) ∧ u.fw.commit = none ∧ u.glb = s.glb)

/-- PARTNER_LOSS, TAKEOVER_EVENT_APPLY, TAKEOVER_COMPLETE (R199–R201), LEASE_TAKE, LEASE_RENEW, LEASE_LAPSE
(R204–R206), RCH_RESPONSE, READ_TIMEOUT (R31). -/
def Obligations.LossTakeoverAndLease : Prop :=
  ∀ (s : State), Up s →
  (twinOn s = true → hasPartner s = true → ∃ u, exec .partnerLoss s = .next (settleMbx u) ∧ 
    u.twin.state = (if s.twin.lease then .solo else .alone) ∧ u.twin.partner = none ∧ u.twin.mirrorQ = [] ∧
    u.twin.takeLeft = some ((viewSources s).filter fun k => takesOver s k)) ∧
  (∀ (k : BitVec 18) l, s.twin.takeLeft = some l → k.toNat ∈ l → applying s = true → s.log.fatal = false → domOn s (dSlc (sliceOf k)) = true →
    let d := s.dyn k.toNat
    let e := srcNow s k.toNat
    let dead := srcLive s e s.glb.epoch = false ∨ d.st = .quarantined
    ∃ u, exec (.takeoverEventApply k) s = .next (afterDlv u) ∧ u.twin.takeLeft = some (l.erase k.toNat) ∧
      u.cnt (smtPage + 0x018) = s.cnt (smtPage + 0x018) + 1 ∧ (∀ j, j ≠ k.toNat → u.dyn j = s.dyn j) ∧
      (dead → u.dyn k.toNat = d) ∧
      (¬dead →
        (d.st = .idle → (u.dyn k.toNat).st = pendState s e ∧ ∃ x, (u.dyn k.toNat).ev = some x ∧ x.dup = true ∧ x.epoch = s.glb.epoch) ∧
        (d.st = .active → (u.dyn k.toNat).st = .activePending ∧ ∃ x, (u.dyn k.toNat).ev = some x ∧ x.dup = true) ∧
        (d.st = .pending ∨ d.st = .held ∨ d.st = .activePending → (u.dyn k.toNat).st = d.st ∧ ∀ x, curEv d = some x →
          ∃ y, curEv (u.dyn k.toNat) = some y ∧ y.dup = true ∧ y.slot = x.slot) ∧
        (d.st = .issued → (u.dyn k.toNat).st = .issued ∧ ∀ x, curEv d = some x → x.frozen = true →
          ∃ y, (u.dyn k.toNat).rep = some y ∧ y.dup = true))) ∧
  (s.twin.takeLeft = some [] → ∃ t, exec .takeoverComplete s = .next t ∧ Only [.out, .stepNo, .twin, .log] s t ∧ t.twin.takeLeft = none ∧
    (∀ j, t.viewOf j = 0) ∧ t.twin.rxDirty = [] ∧ t.twin.takeovers = s.twin.takeovers + 1 ∧ takeoverFlag t = (takeoverFlag s).hwSet ∧
    (s.log.bypass = false → Noted clsCE (linkUnit s .twin) t)) ∧
  (∀ tag, findRdTag s 256 (Config.readTag s.freeCtr) = some tag → powered s = true → fwReady s = true → leaseBusy s = false →
    (s.twin.state = .alone → s.twin.witness.isSome → s.twin.wordAt = 0 ∨ wordOld s = true → ∃ t, exec .leaseTake s = .next t ∧
      t.out = [readOut (witnessAddr s) false tag 0 0] ∧ t.rdOf tag.toNat = some { what := .leaseRead, time := s.glb.now }) ∧
    (∀ w, s.twin.word = some w → s.twin.lease = true →
      (renewing s = none → s.twin.renewAt.toNat + 1000000 ≤ s.glb.now.toNat → ∃ t, exec .leaseRenew s = .next t ∧
        t.out = [readOut (witnessAddr s) true tag w (leaseSwap s true w)] ∧
        t.rdOf tag.toNat = some { what := .leaseRenew w (leaseSwap s true w), time := s.glb.now }) ∧
      (∀ c, renewing s = some c → ∃ t, exec .leaseRenew s = .next t ∧
        t.out = [readOut (witnessAddr s) true tag w (leaseSwap s true w)] ∧
        t.rdOf tag.toNat = some { what := .leaseCommit w (leaseSwap s true w), time := s.glb.now }))) ∧
  (s.twin.lease = true →
    (fwReady s = false ∨ (renewing s = none ∧ s.twin.rewash = none) → ∃ u, exec .leaseLapse s = .next (settleMbx u) ∧
      Only [.out, .stepNo, .twin] s u ∧ u.twin.lease = false ∧ u.twin.state = if s.twin.state = .solo then .alone else s.twin.state) ∧
    (∀ c, fwReady s = true → renewing s = some c → ∃ u, exec .leaseLapse s = .next (settleMbx u) ∧ u.twin.lease = false ∧ u.fw.commit = none)) ∧
  (∀ rs r rp x, powered s = true → fwReady s = true → groupParity r 32 = rp → s.rdOf (fld rs 0 8 : Byte).toNat = some x →
    (fld rs 8 3 = (0 : BitVec 3) → let old : BitVec 64 := fld r 0 64
      (∀ c w, x.what = .leaseTake c w → s.twin.state = .alone → old = c → ∃ u, exec (.rchResponse rs r rp) s = .next (afterDlv u) ∧
        u.twin.lease = true ∧ u.twin.state = .solo ∧ u.twin.word = some w ∧ u.rdOf (fld rs 0 8 : Byte).toNat = none) ∧
      (∀ c w, x.what = .leaseRenew c w → s.twin.lease = true → renewing s = none → s.twin.rewash = none → ∃ u, exec (.rchResponse rs r rp) s = .next (afterDlv u) ∧
        u.rdOf (fld rs 0 8 : Byte).toNat = none ∧ u.twin.lease = decide (old = c) ∧ (old = c → u.twin.renewAt = s.glb.now ∧ u.twin.word = some w)) ∧
      (∀ c w run, x.what = .leaseCommit c w → s.twin.lease = true → renewing s = some run → old = c →
        ∃ u, exec (.rchResponse rs r rp) s = .next (afterDlv u) ∧ u.twin.lease = true ∧ u.twin.state = .solo ∧
          u.glb.epoch = s.glb.epoch + 1 ∧ u.fw.commit = none)) ∧
    (fld rs 8 3 ≠ (0 : BitVec 3) → (x.what = .leaseRead ∨ ∃ c w, x.what = .leaseTake c w) → ∃ u, exec (.rchResponse rs r rp) s = .next (settleMbx u) ∧
      Only [.out, .stepNo, .twin] s u ∧ u.twin.wordAt = s.glb.now ∧ u.rdOf (fld rs 0 8 : Byte).toNat = none)) ∧
  (∀ (tag : BitVec 8) x, powered s = true → fwReady s = true → s.rdOf tag.toNat = some x → x.time.toNat + 10000000 ≤ s.glb.now.toNat →
    (x.what = .leaseRead ∨ ∃ c w, x.what = .leaseTake c w) → ∃ u, exec (.readTimeout tag) s = .next (settleMbx u) ∧
      Only [.out, .stepNo, .twin] s u ∧ u.twin.wordAt = s.glb.now ∧ u.rdOf tag.toNat = none)

/-- REWASH, REWASH_INFO_RECEIVED, REWASH_ENTRIES_RECEIVED, REWASH_DONE_RECEIVED (R207–R209, Table 11-6),
TALLY_CKPT_RECEIVED (R278). keeps is the choice of R208. -/
def Obligations.RewashRuns : Prop :=
  ∀ (s : State), Up s →
  (twinOn s = true → twinUp s = true → fwReady s = true → s.twin.state = .rewash → s.twin.rewash = none → ∃ t, exec .rewash s = .next t ∧
    Only [.out, .stepNo, .twin, .link] s t ∧ (lk t .twin).txReq = (lk s .twin).txReq ++ [.fw 0x10 (infoDws (ownInfo s false))] ∧
    t.twin = { s.twin with rewash := some { byCommand := none, info := none, keeper := none, sent := false, done := false } }) ∧
  (∀ dws r, fwHead s false 0x10 = some dws → s.twin.state = .rewash → s.twin.rewash = some r → owedDestroys s (infoOf dws) = [] →
    let k := keeps s (ownInfo s r.byCommand.isSome) (infoOf dws)
    ∃ u, exec .rewashInfoReceived s = .next (afterDlv (sayDone u)) ∧
      u.twin.rewash = some { r with info := some (infoOf dws), keeper := some k } ∧ u.twin.state = .rewash ∧
      (k = true → u.twin.txDirty = List.range 4096 ∧ u.twin.snapPhase = true ∧ u.mbx = s.mbx) ∧
      (k = false → ∀ m, (u.mailbox m).txn = none)) ∧
  (∀ dws r i, fwHead s false 0x11 = some dws → s.twin.rewash = some r → r.info = some i → r.keeper = some false → s.glb.draining = false →
    s.glb.merging = false →
    (changesDip (differing s (adoptTxn (readBlocks (dws.length + 1) (dws.drop 1) (some (.txn Txn.empty))))) && dipAsleep s) = false → ∃ u, exec .rewashEntriesReceived s = .next (afterDlv u) ∧ u.glb.epoch = fld (dwAt dws 0) 0 16 ∧ u.glb.draining = true ∧
      (fld (dwAt dws 0) 0 16 = i.epoch → u.twin.txDirty = List.range 4096 ∧ u.twin.snapPhase = true)) ∧
  (∀ dws r, fwHead s true 0x12 = some dws → s.twin.rewash = some r → ∃ u, exec .rewashDoneReceived s = .next (settleMbx u) ∧
    (r.sent = true → s.twin.lease = false → u.twin.state = pairedState s ∧ u.twin.rewash = none ∧ u.twin.holder = false ∧ ∀ n, (u.tenantR n).retired = false) ∧
    (r.sent = true → s.twin.lease = true → u.twin.state = s.twin.state ∧ u.twin.rewash = some { r with done := true }) ∧
    (r.sent = false → u.twin = { s.twin with rewash := some { r with done := true } })) ∧
  ∀ dws, twinOn s = true → headRx s .twin false false = some (.fw 0x20 dws) → ∃ t, exec .tallyCkptReceived s = .next t ∧
    Only [.out, .stepNo, .twin, .link] s t ∧
    (∀ n, t.ckpt n = if n = (fld (dwAt dws 0) 0 8 : Byte).toNat then some (dws.take 32) else s.ckpt n) ∧ t.twin.ckptWrite = (s.twin.ckptWrite || aloneSolo s)

/-- BUNDLE_LAUNCH (R230, R238), BUNDLE_RECEIVED (R232, R236, R240), INBOX_RELEASE, RELAY_DISCARD (R240),
BUNDLE_ACK_RECEIVED, BUNDLE_RESEND_RECEIVED (R232, R239), RELAY_PATH_FAIL (R243). -/
def Obligations.RelayMovesBundles : Prop :=
  (∀ (s : State) (q : Req) (b : BitVec 11) (r : BitVec 15), Up s → relayOn s = true → s.log.fatal = false → noRoute s = none →
    launchable s = some q → remoteOf q = some (b, r) → s.relay.bundles.length < 4096 →
    let qs := (s.relay.stage.filter (sameBundle s q)).take 8
    let strap := launchStrap s b
    let key := linkKey (.relay b strap)
    ∃ u x, exec .bundleLaunch s = .next (afterDlv u) ∧ u.relay.bundles = s.relay.bundles ++ [x] ∧ x.blk = b ∧ x.strap = strap ∧ x.ring = r ∧
      x.bseq = Tbl.get zeroD s.relay.bseq key ∧ Tbl.get zeroD u.relay.bseq key = x.bseq + 1 ∧ x.recs = qs.map (relRecOf s) ∧
      x.handle = (s.tenantR (reqTen s q).toNat).handle ∧ x.resends = 0 ∧ (∀ a ∈ u.relay.stage, a ∈ s.relay.stage ∧ a ∉ qs) ∧
      (lk u (.relay b strap)).txReq = (lk s (.relay b strap)).txReq ++ [bundleMsg s x] ∧
      u.cnt (smrPage + 0x070) = s.cnt (smrPage + 0x070) + BitVec.ofNat 48 qs.length) ∧
  (∀ (blk : BitVec 11) (strap : Bool) (isSealed : Bool) (bits : BitVec 2880) (s : State), Up s → relayOn s = true → domOn s dDlv = true →
    headRx s (.relay blk strap) false false = some (.bundle isSealed bits) →
    let l := Seam.relay blk strap
    let rsp := fun (t : State) (m : SMsg) => (lk t l).txRsp = (lk s l).txRsp ++ [m]
    (rxBundle isSealed bits = none → ∃ t, exec (.bundleReceived blk strap) s = .next t ∧ t.relay.inbox = s.relay.inbox ∧
      acceptedOf t l = acceptedOf s l ∧
      rsp t (.bundleResend (ownBlk s) (strapB s) (fld bits 64 32)) ∧ t.cnt (smrPage + 0x068) = s.cnt (smrPage + 0x068) + 1) ∧
    ∀ x, rxBundle isSealed bits = some x →
      (x.bseq ∈ acceptedOf s l → ∃ t, exec (.bundleReceived blk strap) s = .next t ∧ t.relay = s.relay ∧
        rsp t (.bundleAck (ownBlk s) (strapB s) x.bseq)) ∧
      (x.bseq ∉ acceptedOf s l → (∀ n, tenantOfHandle s x.handle = some n → ringOwner s x.ring.toNat ≠ some n) →
        ∃ t, exec (.bundleReceived blk strap) s = .next t ∧ t.relay.inbox = s.relay.inbox ∧ rsp t (.bundleAck (ownBlk s) (strapB s) x.bseq) ∧
          t.cnt (smrPage + 0x080) = s.cnt (smrPage + 0x080) + BitVec.ofNat 48 x.recs.length) ∧
      ∀ n, x.bseq ∉ acceptedOf s l → tenantOfHandle s x.handle = some n → ringOwner s x.ring.toNat = some n →
        (s.relay.inbox.length < 1024 → ∃ t y, exec (.bundleReceived blk strap) s = .next t ∧ t.relay.inbox = joinInbox y s.relay.inbox ∧
          y.sess = some (linkKey l, x.bseq) ∧ y.ring = x.ring ∧ y.ten = n ∧ y.recs = x.recs.map (acceptRec s isSealed) ∧ y.epoch = s.glb.epoch ∧ x.bseq ∈ acceptedOf t l ∧
          rsp t (.bundleAck (ownBlk s) (strapB s) x.bseq) ∧ t.cnt (smrPage + 0x078) = s.cnt (smrPage + 0x078) + BitVec.ofNat 48 x.recs.length ∧
          (x.corrected = true → t.cnt (smrPage + 0x060) = s.cnt (smrPage + 0x060) + 1)) ∧
        (1024 ≤ s.relay.inbox.length → ∃ t, exec (.bundleReceived blk strap) s = .next t ∧ Only [.out, .stepNo] s t)) ∧
  (∀ (ring : BitVec 15) (s : State) (b : InBundle), Up s →
    (∀ x rest, inboxHead s ring = some b → b.recs = x :: rest → mayRelease s ring x = true → ∃ t, exec (.inboxRelease ring) s = .next t ∧ Only [.out, .stepNo, .dlv, .relay] s t ∧
      t.relay = { s.relay with inbox := dropRec b s.relay.inbox } ∧ ∀ i, t.selQ i = if i = (fld x.dw0 18 4 : BitVec 4).toNat then
        s.selQ i ++ [{ kind := .relayed x b.ten, lvl := fld x.dw0 18 4, dest := .half b.ring, epoch := b.epoch, age := s.stepNo + 1,
                       sel := 64 * (s.stepNo + 1), res := false }] else s.selQ i) ∧
    (∀ x rest, inboxHead s ring = some b → b.recs = x :: rest → mayRelease s ring x = false → ∃ t, exec (.inboxRelease ring) s = .next t ∧ Only [.out, .stepNo] s t) ∧
    (inboxHead s ring = none → ∃ t, exec (.inboxRelease ring) s = .next t ∧ Only [.out, .stepNo] s t) ∧
    (s.relay.inbox.find? (fun b => b.ring = ring) = some b →
    (badForSecond s b = true → healthy s ring.toNat = false → ∃ t, exec (.relayDiscard ring) s = .next t ∧
      Only [.out, .stepNo, .relay, .ctr, .log] s t ∧ t.relay.inbox = s.relay.inbox.eraseP (fun x => x.ring = ring) ∧
      t.cnt (smrPage + 0x080) = s.cnt (smrPage + 0x080) + BitVec.ofNat 48 b.recs.length ∧ (s.log.bypass = false → Noted clsCE (uRing ring) t)) ∧
    (badForSecond s b = false ∨ healthy s ring.toNat = true → ∃ t, exec (.relayDiscard ring) s = .next t ∧ Only [.out, .stepNo] s t))) ∧
  ∀ (blk : BitVec 11) (strap : Bool) (q : BitVec 32) (s : State) (b : Bundle), Up s →
    (relayOn s = true → bundleNamed s blk strap q = some b → ∀ pb ps,
      (headRx s (.relay blk strap) true false = some (.bundleAck pb ps q) → ∃ u, exec (.bundleAckReceived blk strap) s = .next (settleMbx u) ∧
        u.relay.bundles = s.relay.bundles.filter fun x => x ≠ b) ∧
      (headRx s (.relay blk strap) true false = some (.bundleResend pb ps q) → ∃ u, exec (.bundleResendReceived blk strap) s = .next (settleMbx u) ∧
        (b.resends < 4 → (lk u (.relay blk strap)).txReq = (lk s (.relay blk strap)).txReq ++ [bundleMsg s b] ∧
          u.relay.bundles = s.relay.bundles.map fun c => if c = b then { c with resends := c.resends + 1 } else c) ∧
        (4 ≤ b.resends → pathFailed u blk strap = true))) ∧
    (linkOn s (.relay blk strap) = true → (lk s (.relay blk strap)).st = .training →
      ∃ u, exec (.relayPathFail blk strap) s = .next (settleMbx u) ∧ pathFailed u blk strap = true)

/-- One step of the queue. The idle step on an empty queue is the model's choice (log entry 8). -/
def Obligations.StepRunsTheFrontCommand : Prop :=
  (∀ (c : Instr) (s : State), step { s with pending := c :: s.pending } = exec c s) ∧ (∀ s : State, s.pending = [] → step s = .next s) ∧
  ∀ (n w : Nat) (s : State), decodeTableWord n w = none ∧ s.withFetchWord n w = s

/-- State.reset holds the values that the spec gives (Table 17-6 and the tables of each chapter). -/
def Obligations.ResetHoldsTheSpecsValues : Prop :=
  let s := State.reset
  s.pending = [] ∧ s.out = [] ∧ s.pwr.phase = .supplyWait ∧ s.pwr.on = 1 ∧ s.pwr.req = 0 ∧ s.glb.capture = true ∧ s.glb.stopped = true ∧
    s.glb.ranking = false ∧ s.glb.epoch = 0 ∧ s.glb.scanSeq = 0 ∧ s.glb.prfReq = 0 ∧ s.glb.prfActive = 0 ∧ s.glb.prfBusy = false ∧ s.glb.now = 0 ∧
    (∀ k, s.main k = if k < 1024 then 1#64 ||| (0xFF#64 <<< 47) else 0) ∧ (∀ k, (s.dyn k).st = .idle ∧ (s.dyn k).ev = none) ∧
    (∀ r, ringEn (ringNow s r) = false ∧ (s.half r).runlvl = 16 ∧ halfQui s r = true ∧ (s.half r).cons = 0 ∧ (s.half r).prod = 0) ∧
    (∀ l : BitVec 4, inputOf s l = l.toNat) ∧ s.dlv.nth = 16 ∧ s.dlv.floor = 64 ∧
    (∀ k, regValid (s.region k) = decide (k = 0 ∨ k = 4096)) ∧ s.region 0 = { lo := 0, hi := 0x1FF8#64, attr := 0x100#64 } ∧
    s.region 4096 = { lo := 0, hi := 0xFFFFF8#64, attr := 0x100#64 } ∧
    (∀ t, (s.tenantR t).coloured = decide (t = 0) ∧ (s.tenantR t).isSealed = false) ∧ (s.tenantR 0).colour = 0 ∧ (∀ g, s.owner g = 0) ∧
    s.twin.state = .training ∧ s.twin.laneCfg = 0xFF0A08#24 ∧ s.twin.takeovers = 0 ∧ (∀ e, s.logEnt e = none) ∧ s.log.base = 0 ∧
    (∀ o, s.cnt o = 0) ∧ (∀ n, s.weight n = 0x0001000100010001#64) ∧ (∀ n, s.tallyAt n = tallyD n) ∧ s.fw.phase = .boot ∧
    (∀ n, (s.tackAt n).st = .free ∧ (s.tackAt n).gen = 0 ∧ (s.tackAt n).lease = 0) ∧ TackInv s

/-- The frame of every command over the components of State. -/
def Obligations.EveryCommandAnswersAndKeepsItsFrame : Prop :=
  ∀ (c : Instr) (s : State), ∃ t, exec c s = .next t ∧ Only (mayWrite c) s t ∧ t.pending = s.pending

/-- TackInv is kept by every step (R296, R297). That it holds at reset is part of ResetHoldsTheSpecsValues. -/
def Obligations.EveryStepKeepsTheTacks : Prop :=
  ∀ s t : State, TackInv s → step s = .next t → TackInv t
end

