-- ==== Sys2Proof/Laws/Flit.lean ====
section
/-! SUPPORT. The fields of a flit that the block makes (R213, R214). -/

namespace Sys2Proof.Machine

/-- The low part of two words side by side, and the high part. -/
theorem fld_append_low {a b : Nat} (x : BitVec a) (y : BitVec b) : fld (x ++ y) 0 b = y := by
  ext i hi
  simp [fld, BitVec.getLsbD_append, hi]

theorem fld_append_high {a b : Nat} (x : BitVec a) (y : BitVec b) : fld (x ++ y) b a = x := by
  ext i hi
  simp [fld, BitVec.getLsbD_append, hi]

theorem fld_append_in {a b : Nat} (x : BitVec a) (y : BitVec b) (lo n : Nat) (h : lo + n ≤ b) : fld (x ++ y) lo n = fld y lo n := by
  ext i hi
  simp [fld, BitVec.getLsbD_append]
  intro hb
  omega

@[simp] theorem flPayload_mkFlit (h : DW) (p : BitVec 960) (q : BitVec 16) : flPayload (mkFlit h p q) = p := by
  rw [flPayload, mkFlit, fld_append_in _ _ 32 960 (by decide)]
  exact fld_append_high p h

@[simp] theorem flHeader_mkFlit (h : DW) (p : BitVec 960) (q : BitVec 16) (lo n : Nat) (hn : lo + n ≤ 32) : fld (mkFlit h p q) lo n = fld h lo n := by
  rw [mkFlit, fld_append_in _ _ lo n (by omega), fld_append_in _ _ lo n hn]

/-- A flit passes the check of the prefix that it was made with. -/
@[simp] theorem flitMatches_mkFlit (h : DW) (p : BitVec 960) (q : BitVec 16) : flitMatches (mkFlit h p q) q = true := by
  rw [flitMatches, flCrc, mkFlit, fld_append_high, fld_append_low]
  simp

end Sys2Proof.Machine
end

