-- ==== Sys2Proof/Laws/Tbl.lean ====
section
/-! SUPPORT. The tables of State: reading after writing, and the canonical form that every write keeps (log entry 7). -/

namespace Sys2Proof.Machine

variable {α : Type}

theorem Tbl.get_erase_self (d : Nat → α) (t : Tbl α) (k : Nat) : Tbl.get d (t.erase k) k = d k := by
  induction t with
  | nil => rfl
  | cons p r ih =>
    by_cases h : p.1 = k
    · simpa [Tbl.erase, h] using ih
    · simpa [Tbl.erase, h, Tbl.get] using ih

theorem Tbl.get_erase_ne (d : Nat → α) (t : Tbl α) {k j : Nat} (hj : j ≠ k) :
    Tbl.get d (t.erase k) j = Tbl.get d t j := by
  induction t with
  | nil => rfl
  | cons p r ih =>
    by_cases h : p.1 = k
    · have hp : p.1 ≠ j := fun e => hj (e ▸ h)
      simpa [Tbl.erase, h, Tbl.get, hj, hp, Ne.symm hj] using ih
    · by_cases h2 : p.1 = j
      · simp [Tbl.erase, h2, hj, Tbl.get]
      · simpa [Tbl.erase, h, h2, Tbl.get] using ih

theorem Tbl.get_insert (d : Nat → α) (t : Tbl α) (k : Nat) (v : α) (hk : ∀ p ∈ t, p.1 ≠ k) (j : Nat) :
    Tbl.get d (Tbl.insert k v t) j = if j = k then v else Tbl.get d t j := by
  induction t with
  | nil => simp [Tbl.insert, Tbl.get, eq_comm]
  | cons p r ih =>
    have hp : p.1 ≠ k := hk p (by simp)
    have ih' := ih fun q hq => hk q (by simp [hq])
    by_cases h1 : k < p.1
    · simp only [Tbl.insert, Tbl.get, h1, if_true, @eq_comm _ k j]
    · by_cases h2 : p.1 = j
      · have : j ≠ k := fun e => hp (h2.trans e)
        simp only [Tbl.insert, if_neg h1, Tbl.get, if_pos h2, if_neg this]
      · simp [Tbl.insert, Tbl.get, h1, h2, ih']

/-- Reading a table after a write. -/
theorem Tbl.get_set [DecidableEq α] (d : Nat → α) (t : Tbl α) (k : Nat) (v : α) (j : Nat) :
    Tbl.get d (Tbl.set d t k v) j = if j = k then v else Tbl.get d t j := by
  unfold Tbl.set
  split
  · next h =>
    by_cases hj : j = k
    · subst hj; simp [Tbl.get_erase_self, h]
    · simp [Tbl.get_erase_ne d t hj, hj]
  · rw [Tbl.get_insert]
    · by_cases hj : j = k
      · simp [hj]
      · simp [hj, Tbl.get_erase_ne d t hj]
    · intro p hp
      simpa [Tbl.erase] using (List.mem_filter.mp hp).2

@[simp] theorem Tbl.get_set_self [DecidableEq α] (d : Nat → α) (t : Tbl α) (k : Nat) (v : α) :
    Tbl.get d (Tbl.set d t k v) k = v := by simp [Tbl.get_set]

theorem Tbl.get_set_ne [DecidableEq α] (d : Nat → α) (t : Tbl α) {k j : Nat} (v : α) (h : j ≠ k) :
    Tbl.get d (Tbl.set d t k v) j = Tbl.get d t j := by simp [Tbl.get_set, h]

theorem Tbl.mem_insert (k : Nat) (v : α) (t : Tbl α) (p : Nat × α) :
    p ∈ Tbl.insert k v t ↔ p = (k, v) ∨ p ∈ t := by
  induction t with
  | nil => simp [Tbl.insert]
  | cons q r ih =>
    by_cases h : k < q.1
    · simp [Tbl.insert, h]
    · simp only [Tbl.insert, if_neg h, List.mem_cons, ih]; exact or_left_comm

theorem Tbl.insert_sorted (k : Nat) (v : α) (t : Tbl α) (hk : ∀ p ∈ t, p.1 ≠ k)
    (h : (t.map Prod.fst).Pairwise (· < ·)) : ((Tbl.insert k v t).map Prod.fst).Pairwise (· < ·) := by
  induction t with
  | nil => simp [Tbl.insert]
  | cons p r ih =>
    have hp : p.1 ≠ k := hk p (by simp)
    simp only [List.map_cons, List.pairwise_cons, List.mem_map, forall_exists_index, and_imp,
      forall_apply_eq_imp_iff₂] at h
    by_cases h1 : k < p.1
    · simp only [Tbl.insert, h1, if_true, List.map_cons, List.pairwise_cons, List.mem_cons, List.mem_map]
      refine ⟨?_, by simpa using h⟩
      rintro a (rfl | ⟨q, hq, rfl⟩)
      · exact h1
      · exact Nat.lt_trans h1 (h.1 q hq)
    · simp only [Tbl.insert, h1, if_false, List.map_cons, List.pairwise_cons, List.mem_map]
      refine ⟨?_, ih (fun q hq => hk q (by simp [hq])) h.2⟩
      rintro a ⟨q, hq, rfl⟩
      rcases (Tbl.mem_insert k v r q).mp hq with rfl | hq
      · exact by omega
      · exact h.1 q hq

/-- The empty table is canonical. -/
theorem Tbl.wf_nil [DecidableEq α] (d : Nat → α) : Tbl.wf d ([] : Tbl α) := by simp [Tbl.wf]

theorem Tbl.wf_erase [DecidableEq α] (d : Nat → α) (t : Tbl α) (k : Nat) (h : Tbl.wf d t) : Tbl.wf d (t.erase k) := by
  refine ⟨?_, fun p hp => h.2 p (List.mem_filter.mp hp).1⟩
  exact h.1.sublist ((List.filter_sublist).map _)

/-- Every write keeps the canonical form. -/
theorem Tbl.wf_set [DecidableEq α] (d : Nat → α) (t : Tbl α) (k : Nat) (v : α) (h : Tbl.wf d t) :
    Tbl.wf d (Tbl.set d t k v) := by
  unfold Tbl.set
  split
  · exact Tbl.wf_erase d t k h
  · next hv =>
    have he := Tbl.wf_erase d t k h
    refine ⟨Tbl.insert_sorted k v _ (fun p hp => by simpa [Tbl.erase] using (List.mem_filter.mp hp).2) he.1, ?_⟩
    intro p hp
    rcases (Tbl.mem_insert k v _ p).mp hp with rfl | hp
    · exact hv
    · exact he.2 p hp

/-- What a write makes of the listed indices: no new index but the written one. -/
theorem Tbl.mem_set [DecidableEq α] (d : Nat → α) (t : Tbl α) (k : Nat) (v : α) (p : Nat × α)
    (h : p ∈ Tbl.set d t k v) : p = (k, v) ∨ p ∈ t := by
  unfold Tbl.set at h
  split at h
  · exact .inr (List.mem_filter.mp h).1
  · rcases (Tbl.mem_insert k v _ p).mp h with rfl | h
    · exact .inl rfl
    · exact .inr (List.mem_filter.mp h).1

end Sys2Proof.Machine
end

