-- ==== Sys2Proof/Laws/State.lean ====
section
/-! SUPPORT. State: every update of a component or a table entry with what it leaves, and what is read after it. -/

namespace Sys2Proof.Machine

/-! ### A component replaced -/

@[simp] theorem State.upIntake_self (s : State) (f : Intake → Intake) : (s.upIntake f).intake = f s.intake := rfl
@[simp] theorem State.upIntake_frame (s : State) (f : Intake → Intake) : (s.upIntake f).pending = s.pending ∧
    (s.upIntake f).out = s.out ∧ (s.upIntake f).stepNo = s.stepNo ∧ (s.upIntake f).freeCtr = s.freeCtr ∧ (s.upIntake
    f).pwr = s.pwr ∧ (s.upIntake f).glb = s.glb ∧ (s.upIntake f).slc = s.slc ∧ (s.upIntake f).dlv = s.dlv ∧
    (s.upIntake f).gates = s.gates ∧ (s.upIntake f).mbx = s.mbx ∧ (s.upIntake f).tenant = s.tenant ∧ (s.upIntake f).fw
    = s.fw ∧ (s.upIntake f).twin = s.twin ∧ (s.upIntake f).link = s.link ∧ (s.upIntake f).relay = s.relay ∧
    (s.upIntake f).tly = s.tly ∧ (s.upIntake f).ctr = s.ctr ∧ (s.upIntake f).log = s.log ∧ (s.upIntake f).tack =
    s.tack :=
  ⟨rfl, rfl, rfl, rfl, rfl, rfl, rfl, rfl, rfl, rfl, rfl, rfl, rfl, rfl, rfl, rfl, rfl, rfl, rfl⟩

@[simp] theorem State.upSlc_self (s : State) (f : Slices → Slices) : (s.upSlc f).slc = f s.slc := rfl
@[simp] theorem State.upSlc_frame (s : State) (f : Slices → Slices) : (s.upSlc f).pending = s.pending ∧ (s.upSlc
    f).out = s.out ∧ (s.upSlc f).stepNo = s.stepNo ∧ (s.upSlc f).freeCtr = s.freeCtr ∧ (s.upSlc f).pwr = s.pwr ∧
    (s.upSlc f).glb = s.glb ∧ (s.upSlc f).intake = s.intake ∧ (s.upSlc f).dlv = s.dlv ∧ (s.upSlc f).gates = s.gates ∧
    (s.upSlc f).mbx = s.mbx ∧ (s.upSlc f).tenant = s.tenant ∧ (s.upSlc f).fw = s.fw ∧ (s.upSlc f).twin = s.twin ∧
    (s.upSlc f).link = s.link ∧ (s.upSlc f).relay = s.relay ∧ (s.upSlc f).tly = s.tly ∧ (s.upSlc f).ctr = s.ctr ∧
    (s.upSlc f).log = s.log ∧ (s.upSlc f).tack = s.tack :=
  ⟨rfl, rfl, rfl, rfl, rfl, rfl, rfl, rfl, rfl, rfl, rfl, rfl, rfl, rfl, rfl, rfl, rfl, rfl, rfl⟩

@[simp] theorem State.upDlv_self (s : State) (f : Dlv → Dlv) : (s.upDlv f).dlv = f s.dlv := rfl
@[simp] theorem State.upDlv_frame (s : State) (f : Dlv → Dlv) : (s.upDlv f).pending = s.pending ∧ (s.upDlv f).out =
    s.out ∧ (s.upDlv f).stepNo = s.stepNo ∧ (s.upDlv f).freeCtr = s.freeCtr ∧ (s.upDlv f).pwr = s.pwr ∧ (s.upDlv
    f).glb = s.glb ∧ (s.upDlv f).intake = s.intake ∧ (s.upDlv f).slc = s.slc ∧ (s.upDlv f).gates = s.gates ∧ (s.upDlv
    f).mbx = s.mbx ∧ (s.upDlv f).tenant = s.tenant ∧ (s.upDlv f).fw = s.fw ∧ (s.upDlv f).twin = s.twin ∧ (s.upDlv
    f).link = s.link ∧ (s.upDlv f).relay = s.relay ∧ (s.upDlv f).tly = s.tly ∧ (s.upDlv f).ctr = s.ctr ∧ (s.upDlv
    f).log = s.log ∧ (s.upDlv f).tack = s.tack :=
  ⟨rfl, rfl, rfl, rfl, rfl, rfl, rfl, rfl, rfl, rfl, rfl, rfl, rfl, rfl, rfl, rfl, rfl, rfl, rfl⟩

@[simp] theorem State.upGates_self (s : State) (f : Gates → Gates) : (s.upGates f).gates = f s.gates := rfl
@[simp] theorem State.upGates_frame (s : State) (f : Gates → Gates) : (s.upGates f).pending = s.pending ∧ (s.upGates
    f).out = s.out ∧ (s.upGates f).stepNo = s.stepNo ∧ (s.upGates f).freeCtr = s.freeCtr ∧ (s.upGates f).pwr = s.pwr ∧
    (s.upGates f).glb = s.glb ∧ (s.upGates f).intake = s.intake ∧ (s.upGates f).slc = s.slc ∧ (s.upGates f).dlv =
    s.dlv ∧ (s.upGates f).mbx = s.mbx ∧ (s.upGates f).tenant = s.tenant ∧ (s.upGates f).fw = s.fw ∧ (s.upGates f).twin
    = s.twin ∧ (s.upGates f).link = s.link ∧ (s.upGates f).relay = s.relay ∧ (s.upGates f).tly = s.tly ∧ (s.upGates
    f).ctr = s.ctr ∧ (s.upGates f).log = s.log ∧ (s.upGates f).tack = s.tack :=
  ⟨rfl, rfl, rfl, rfl, rfl, rfl, rfl, rfl, rfl, rfl, rfl, rfl, rfl, rfl, rfl, rfl, rfl, rfl, rfl⟩

@[simp] theorem State.upFw_self (s : State) (f : Fw → Fw) : (s.upFw f).fw = f s.fw := rfl
@[simp] theorem State.upFw_frame (s : State) (f : Fw → Fw) : (s.upFw f).pending = s.pending ∧ (s.upFw f).out = s.out ∧
    (s.upFw f).stepNo = s.stepNo ∧ (s.upFw f).freeCtr = s.freeCtr ∧ (s.upFw f).pwr = s.pwr ∧ (s.upFw f).glb = s.glb ∧
    (s.upFw f).intake = s.intake ∧ (s.upFw f).slc = s.slc ∧ (s.upFw f).dlv = s.dlv ∧ (s.upFw f).gates = s.gates ∧
    (s.upFw f).mbx = s.mbx ∧ (s.upFw f).tenant = s.tenant ∧ (s.upFw f).twin = s.twin ∧ (s.upFw f).link = s.link ∧
    (s.upFw f).relay = s.relay ∧ (s.upFw f).tly = s.tly ∧ (s.upFw f).ctr = s.ctr ∧ (s.upFw f).log = s.log ∧ (s.upFw
    f).tack = s.tack :=
  ⟨rfl, rfl, rfl, rfl, rfl, rfl, rfl, rfl, rfl, rfl, rfl, rfl, rfl, rfl, rfl, rfl, rfl, rfl, rfl⟩

@[simp] theorem State.upTwin_self (s : State) (f : Twin → Twin) : (s.upTwin f).twin = f s.twin := rfl
@[simp] theorem State.upTwin_frame (s : State) (f : Twin → Twin) : (s.upTwin f).pending = s.pending ∧ (s.upTwin f).out
    = s.out ∧ (s.upTwin f).stepNo = s.stepNo ∧ (s.upTwin f).freeCtr = s.freeCtr ∧ (s.upTwin f).pwr = s.pwr ∧ (s.upTwin
    f).glb = s.glb ∧ (s.upTwin f).intake = s.intake ∧ (s.upTwin f).slc = s.slc ∧ (s.upTwin f).dlv = s.dlv ∧ (s.upTwin
    f).gates = s.gates ∧ (s.upTwin f).mbx = s.mbx ∧ (s.upTwin f).tenant = s.tenant ∧ (s.upTwin f).fw = s.fw ∧
    (s.upTwin f).link = s.link ∧ (s.upTwin f).relay = s.relay ∧ (s.upTwin f).tly = s.tly ∧ (s.upTwin f).ctr = s.ctr ∧
    (s.upTwin f).log = s.log ∧ (s.upTwin f).tack = s.tack :=
  ⟨rfl, rfl, rfl, rfl, rfl, rfl, rfl, rfl, rfl, rfl, rfl, rfl, rfl, rfl, rfl, rfl, rfl, rfl, rfl⟩

@[simp] theorem State.upRelay_self (s : State) (f : Relay → Relay) : (s.upRelay f).relay = f s.relay := rfl
@[simp] theorem State.upRelay_frame (s : State) (f : Relay → Relay) : (s.upRelay f).pending = s.pending ∧ (s.upRelay
    f).out = s.out ∧ (s.upRelay f).stepNo = s.stepNo ∧ (s.upRelay f).freeCtr = s.freeCtr ∧ (s.upRelay f).pwr = s.pwr ∧
    (s.upRelay f).glb = s.glb ∧ (s.upRelay f).intake = s.intake ∧ (s.upRelay f).slc = s.slc ∧ (s.upRelay f).dlv =
    s.dlv ∧ (s.upRelay f).gates = s.gates ∧ (s.upRelay f).mbx = s.mbx ∧ (s.upRelay f).tenant = s.tenant ∧ (s.upRelay
    f).fw = s.fw ∧ (s.upRelay f).twin = s.twin ∧ (s.upRelay f).link = s.link ∧ (s.upRelay f).tly = s.tly ∧ (s.upRelay
    f).ctr = s.ctr ∧ (s.upRelay f).log = s.log ∧ (s.upRelay f).tack = s.tack :=
  ⟨rfl, rfl, rfl, rfl, rfl, rfl, rfl, rfl, rfl, rfl, rfl, rfl, rfl, rfl, rfl, rfl, rfl, rfl, rfl⟩

@[simp] theorem State.upTly_self (s : State) (f : Tly → Tly) : (s.upTly f).tly = f s.tly := rfl
@[simp] theorem State.upTly_frame (s : State) (f : Tly → Tly) : (s.upTly f).pending = s.pending ∧ (s.upTly f).out =
    s.out ∧ (s.upTly f).stepNo = s.stepNo ∧ (s.upTly f).freeCtr = s.freeCtr ∧ (s.upTly f).pwr = s.pwr ∧ (s.upTly
    f).glb = s.glb ∧ (s.upTly f).intake = s.intake ∧ (s.upTly f).slc = s.slc ∧ (s.upTly f).dlv = s.dlv ∧ (s.upTly
    f).gates = s.gates ∧ (s.upTly f).mbx = s.mbx ∧ (s.upTly f).tenant = s.tenant ∧ (s.upTly f).fw = s.fw ∧ (s.upTly
    f).twin = s.twin ∧ (s.upTly f).link = s.link ∧ (s.upTly f).relay = s.relay ∧ (s.upTly f).ctr = s.ctr ∧ (s.upTly
    f).log = s.log ∧ (s.upTly f).tack = s.tack :=
  ⟨rfl, rfl, rfl, rfl, rfl, rfl, rfl, rfl, rfl, rfl, rfl, rfl, rfl, rfl, rfl, rfl, rfl, rfl, rfl⟩

@[simp] theorem State.upCtr_self (s : State) (f : Ctr → Ctr) : (s.upCtr f).ctr = f s.ctr := rfl
@[simp] theorem State.upCtr_frame (s : State) (f : Ctr → Ctr) : (s.upCtr f).pending = s.pending ∧ (s.upCtr f).out =
    s.out ∧ (s.upCtr f).stepNo = s.stepNo ∧ (s.upCtr f).freeCtr = s.freeCtr ∧ (s.upCtr f).pwr = s.pwr ∧ (s.upCtr
    f).glb = s.glb ∧ (s.upCtr f).intake = s.intake ∧ (s.upCtr f).slc = s.slc ∧ (s.upCtr f).dlv = s.dlv ∧ (s.upCtr
    f).gates = s.gates ∧ (s.upCtr f).mbx = s.mbx ∧ (s.upCtr f).tenant = s.tenant ∧ (s.upCtr f).fw = s.fw ∧ (s.upCtr
    f).twin = s.twin ∧ (s.upCtr f).link = s.link ∧ (s.upCtr f).relay = s.relay ∧ (s.upCtr f).tly = s.tly ∧ (s.upCtr
    f).log = s.log ∧ (s.upCtr f).tack = s.tack :=
  ⟨rfl, rfl, rfl, rfl, rfl, rfl, rfl, rfl, rfl, rfl, rfl, rfl, rfl, rfl, rfl, rfl, rfl, rfl, rfl⟩

@[simp] theorem State.upLog_self (s : State) (f : Log → Log) : (s.upLog f).log = f s.log := rfl
@[simp] theorem State.upLog_frame (s : State) (f : Log → Log) : (s.upLog f).pending = s.pending ∧ (s.upLog f).out =
    s.out ∧ (s.upLog f).stepNo = s.stepNo ∧ (s.upLog f).freeCtr = s.freeCtr ∧ (s.upLog f).pwr = s.pwr ∧ (s.upLog
    f).glb = s.glb ∧ (s.upLog f).intake = s.intake ∧ (s.upLog f).slc = s.slc ∧ (s.upLog f).dlv = s.dlv ∧ (s.upLog
    f).gates = s.gates ∧ (s.upLog f).mbx = s.mbx ∧ (s.upLog f).tenant = s.tenant ∧ (s.upLog f).fw = s.fw ∧ (s.upLog
    f).twin = s.twin ∧ (s.upLog f).link = s.link ∧ (s.upLog f).relay = s.relay ∧ (s.upLog f).tly = s.tly ∧ (s.upLog
    f).ctr = s.ctr ∧ (s.upLog f).tack = s.tack :=
  ⟨rfl, rfl, rfl, rfl, rfl, rfl, rfl, rfl, rfl, rfl, rfl, rfl, rfl, rfl, rfl, rfl, rfl, rfl, rfl⟩

@[simp] theorem State.upGlb_self (s : State) (f : Glb → Glb) : (s.upGlb f).glb = f s.glb := rfl
@[simp] theorem State.upGlb_frame (s : State) (f : Glb → Glb) : (s.upGlb f).pending = s.pending ∧ (s.upGlb f).out =
    s.out ∧ (s.upGlb f).stepNo = s.stepNo ∧ (s.upGlb f).freeCtr = s.freeCtr ∧ (s.upGlb f).pwr = s.pwr ∧ (s.upGlb
    f).intake = s.intake ∧ (s.upGlb f).slc = s.slc ∧ (s.upGlb f).dlv = s.dlv ∧ (s.upGlb f).gates = s.gates ∧ (s.upGlb
    f).mbx = s.mbx ∧ (s.upGlb f).tenant = s.tenant ∧ (s.upGlb f).fw = s.fw ∧ (s.upGlb f).twin = s.twin ∧ (s.upGlb
    f).link = s.link ∧ (s.upGlb f).relay = s.relay ∧ (s.upGlb f).tly = s.tly ∧ (s.upGlb f).ctr = s.ctr ∧ (s.upGlb
    f).log = s.log ∧ (s.upGlb f).tack = s.tack :=
  ⟨rfl, rfl, rfl, rfl, rfl, rfl, rfl, rfl, rfl, rfl, rfl, rfl, rfl, rfl, rfl, rfl, rfl, rfl, rfl⟩

@[simp] theorem State.upPwr_self (s : State) (f : Pwr → Pwr) : (s.upPwr f).pwr = f s.pwr := rfl
@[simp] theorem State.upPwr_frame (s : State) (f : Pwr → Pwr) : (s.upPwr f).pending = s.pending ∧ (s.upPwr f).out =
    s.out ∧ (s.upPwr f).stepNo = s.stepNo ∧ (s.upPwr f).freeCtr = s.freeCtr ∧ (s.upPwr f).glb = s.glb ∧ (s.upPwr
    f).intake = s.intake ∧ (s.upPwr f).slc = s.slc ∧ (s.upPwr f).dlv = s.dlv ∧ (s.upPwr f).gates = s.gates ∧ (s.upPwr
    f).mbx = s.mbx ∧ (s.upPwr f).tenant = s.tenant ∧ (s.upPwr f).fw = s.fw ∧ (s.upPwr f).twin = s.twin ∧ (s.upPwr
    f).link = s.link ∧ (s.upPwr f).relay = s.relay ∧ (s.upPwr f).tly = s.tly ∧ (s.upPwr f).ctr = s.ctr ∧ (s.upPwr
    f).log = s.log ∧ (s.upPwr f).tack = s.tack :=
  ⟨rfl, rfl, rfl, rfl, rfl, rfl, rfl, rfl, rfl, rfl, rfl, rfl, rfl, rfl, rfl, rfl, rfl, rfl, rfl⟩

@[simp] theorem State.upMbx_self (s : State) (f : Tbl Mailbox → Tbl Mailbox) : (s.upMbx f).mbx = f s.mbx := rfl
@[simp] theorem State.upMbx_frame (s : State) (f : Tbl Mailbox → Tbl Mailbox) : (s.upMbx f).pending = s.pending ∧
    (s.upMbx f).out = s.out ∧ (s.upMbx f).stepNo = s.stepNo ∧ (s.upMbx f).freeCtr = s.freeCtr ∧ (s.upMbx f).pwr =
    s.pwr ∧ (s.upMbx f).glb = s.glb ∧ (s.upMbx f).intake = s.intake ∧ (s.upMbx f).slc = s.slc ∧ (s.upMbx f).dlv =
    s.dlv ∧ (s.upMbx f).gates = s.gates ∧ (s.upMbx f).tenant = s.tenant ∧ (s.upMbx f).fw = s.fw ∧ (s.upMbx f).twin =
    s.twin ∧ (s.upMbx f).link = s.link ∧ (s.upMbx f).relay = s.relay ∧ (s.upMbx f).tly = s.tly ∧ (s.upMbx f).ctr =
    s.ctr ∧ (s.upMbx f).log = s.log ∧ (s.upMbx f).tack = s.tack :=
  ⟨rfl, rfl, rfl, rfl, rfl, rfl, rfl, rfl, rfl, rfl, rfl, rfl, rfl, rfl, rfl, rfl, rfl, rfl, rfl⟩

@[simp] theorem State.upTenant_self (s : State) (f : Tbl Tenant → Tbl Tenant) : (s.upTenant f).tenant = f s.tenant := rfl
@[simp] theorem State.upTenant_frame (s : State) (f : Tbl Tenant → Tbl Tenant) : (s.upTenant f).pending = s.pending ∧
    (s.upTenant f).out = s.out ∧ (s.upTenant f).stepNo = s.stepNo ∧ (s.upTenant f).freeCtr = s.freeCtr ∧ (s.upTenant
    f).pwr = s.pwr ∧ (s.upTenant f).glb = s.glb ∧ (s.upTenant f).intake = s.intake ∧ (s.upTenant f).slc = s.slc ∧
    (s.upTenant f).dlv = s.dlv ∧ (s.upTenant f).gates = s.gates ∧ (s.upTenant f).mbx = s.mbx ∧ (s.upTenant f).fw =
    s.fw ∧ (s.upTenant f).twin = s.twin ∧ (s.upTenant f).link = s.link ∧ (s.upTenant f).relay = s.relay ∧ (s.upTenant
    f).tly = s.tly ∧ (s.upTenant f).ctr = s.ctr ∧ (s.upTenant f).log = s.log ∧ (s.upTenant f).tack = s.tack :=
  ⟨rfl, rfl, rfl, rfl, rfl, rfl, rfl, rfl, rfl, rfl, rfl, rfl, rfl, rfl, rfl, rfl, rfl, rfl, rfl⟩

@[simp] theorem State.upLink_self (s : State) (f : Tbl Link → Tbl Link) : (s.upLink f).link = f s.link := rfl
@[simp] theorem State.upLink_frame (s : State) (f : Tbl Link → Tbl Link) : (s.upLink f).pending = s.pending ∧
    (s.upLink f).out = s.out ∧ (s.upLink f).stepNo = s.stepNo ∧ (s.upLink f).freeCtr = s.freeCtr ∧ (s.upLink f).pwr =
    s.pwr ∧ (s.upLink f).glb = s.glb ∧ (s.upLink f).intake = s.intake ∧ (s.upLink f).slc = s.slc ∧ (s.upLink f).dlv =
    s.dlv ∧ (s.upLink f).gates = s.gates ∧ (s.upLink f).mbx = s.mbx ∧ (s.upLink f).tenant = s.tenant ∧ (s.upLink f).fw
    = s.fw ∧ (s.upLink f).twin = s.twin ∧ (s.upLink f).relay = s.relay ∧ (s.upLink f).tly = s.tly ∧ (s.upLink f).ctr =
    s.ctr ∧ (s.upLink f).log = s.log ∧ (s.upLink f).tack = s.tack :=
  ⟨rfl, rfl, rfl, rfl, rfl, rfl, rfl, rfl, rfl, rfl, rfl, rfl, rfl, rfl, rfl, rfl, rfl, rfl, rfl⟩

@[simp] theorem State.upTack_self (s : State) (f : Tbl Tack → Tbl Tack) : (s.upTack f).tack = f s.tack := rfl
@[simp] theorem State.upTack_frame (s : State) (f : Tbl Tack → Tbl Tack) : (s.upTack f).pending = s.pending ∧
    (s.upTack f).out = s.out ∧ (s.upTack f).stepNo = s.stepNo ∧ (s.upTack f).freeCtr = s.freeCtr ∧ (s.upTack f).pwr =
    s.pwr ∧ (s.upTack f).glb = s.glb ∧ (s.upTack f).intake = s.intake ∧ (s.upTack f).slc = s.slc ∧ (s.upTack f).dlv =
    s.dlv ∧ (s.upTack f).gates = s.gates ∧ (s.upTack f).mbx = s.mbx ∧ (s.upTack f).tenant = s.tenant ∧ (s.upTack f).fw
    = s.fw ∧ (s.upTack f).twin = s.twin ∧ (s.upTack f).link = s.link ∧ (s.upTack f).relay = s.relay ∧ (s.upTack f).tly
    = s.tly ∧ (s.upTack f).ctr = s.ctr ∧ (s.upTack f).log = s.log :=
  ⟨rfl, rfl, rfl, rfl, rfl, rfl, rfl, rfl, rfl, rfl, rfl, rfl, rfl, rfl, rfl, rfl, rfl, rfl, rfl⟩

/-! ### A table entry written: what is read after it, and what it leaves -/

theorem State.heldL_setHeldL (s : State) (dip : Nat) (v : List Held) (key : Nat) : (s.setHeldL dip v).heldL key = if
    key = dip then v else s.heldL key := Tbl.get_set _ _ _ _ _
@[simp] theorem State.heldL_setHeldL_self (s : State) (dip : Nat) (v : List Held) : (s.setHeldL dip v).heldL dip = v
    := Tbl.get_set_self _ _ _ _
@[simp] theorem State.setHeldL_frame (s : State) (dip : Nat) (v : List Held) : (s.setHeldL dip v).pending = s.pending
    ∧ (s.setHeldL dip v).out = s.out ∧ (s.setHeldL dip v).stepNo = s.stepNo ∧ (s.setHeldL dip v).freeCtr = s.freeCtr ∧
    (s.setHeldL dip v).pwr = s.pwr ∧ (s.setHeldL dip v).glb = s.glb ∧ (s.setHeldL dip v).slc = s.slc ∧ (s.setHeldL dip
    v).dlv = s.dlv ∧ (s.setHeldL dip v).gates = s.gates ∧ (s.setHeldL dip v).mbx = s.mbx ∧ (s.setHeldL dip v).tenant =
    s.tenant ∧ (s.setHeldL dip v).fw = s.fw ∧ (s.setHeldL dip v).twin = s.twin ∧ (s.setHeldL dip v).link = s.link ∧
    (s.setHeldL dip v).relay = s.relay ∧ (s.setHeldL dip v).tly = s.tly ∧ (s.setHeldL dip v).ctr = s.ctr ∧ (s.setHeldL
    dip v).log = s.log ∧ (s.setHeldL dip v).tack = s.tack :=
  ⟨rfl, rfl, rfl, rfl, rfl, rfl, rfl, rfl, rfl, rfl, rfl, rfl, rfl, rfl, rfl, rfl, rfl, rfl, rfl⟩

theorem State.folder_setFolder (s : State) (dip : Nat) (v : List FoldEnt) (key : Nat) : (s.setFolder dip v).folder key
    = if key = dip then v else s.folder key := Tbl.get_set _ _ _ _ _
@[simp] theorem State.folder_setFolder_self (s : State) (dip : Nat) (v : List FoldEnt) : (s.setFolder dip v).folder
    dip = v := Tbl.get_set_self _ _ _ _
@[simp] theorem State.setFolder_frame (s : State) (dip : Nat) (v : List FoldEnt) : (s.setFolder dip v).pending =
    s.pending ∧ (s.setFolder dip v).out = s.out ∧ (s.setFolder dip v).stepNo = s.stepNo ∧ (s.setFolder dip v).freeCtr
    = s.freeCtr ∧ (s.setFolder dip v).pwr = s.pwr ∧ (s.setFolder dip v).glb = s.glb ∧ (s.setFolder dip v).slc = s.slc
    ∧ (s.setFolder dip v).dlv = s.dlv ∧ (s.setFolder dip v).gates = s.gates ∧ (s.setFolder dip v).mbx = s.mbx ∧
    (s.setFolder dip v).tenant = s.tenant ∧ (s.setFolder dip v).fw = s.fw ∧ (s.setFolder dip v).twin = s.twin ∧
    (s.setFolder dip v).link = s.link ∧ (s.setFolder dip v).relay = s.relay ∧ (s.setFolder dip v).tly = s.tly ∧
    (s.setFolder dip v).ctr = s.ctr ∧ (s.setFolder dip v).log = s.log ∧ (s.setFolder dip v).tack = s.tack :=
  ⟨rfl, rfl, rfl, rfl, rfl, rfl, rfl, rfl, rfl, rfl, rfl, rfl, rfl, rfl, rfl, rfl, rfl, rfl, rfl⟩

theorem State.queue_setQueue (s : State) (k : Nat) (v : List Msg) (key : Nat) : (s.setQueue k v).queue key = if key =
    k then v else s.queue key := Tbl.get_set _ _ _ _ _
@[simp] theorem State.queue_setQueue_self (s : State) (k : Nat) (v : List Msg) : (s.setQueue k v).queue k = v :=
    Tbl.get_set_self _ _ _ _
@[simp] theorem State.setQueue_frame (s : State) (k : Nat) (v : List Msg) : (s.setQueue k v).pending = s.pending ∧
    (s.setQueue k v).out = s.out ∧ (s.setQueue k v).stepNo = s.stepNo ∧ (s.setQueue k v).freeCtr = s.freeCtr ∧
    (s.setQueue k v).pwr = s.pwr ∧ (s.setQueue k v).glb = s.glb ∧ (s.setQueue k v).slc = s.slc ∧ (s.setQueue k v).dlv
    = s.dlv ∧ (s.setQueue k v).gates = s.gates ∧ (s.setQueue k v).mbx = s.mbx ∧ (s.setQueue k v).tenant = s.tenant ∧
    (s.setQueue k v).fw = s.fw ∧ (s.setQueue k v).twin = s.twin ∧ (s.setQueue k v).link = s.link ∧ (s.setQueue k
    v).relay = s.relay ∧ (s.setQueue k v).tly = s.tly ∧ (s.setQueue k v).ctr = s.ctr ∧ (s.setQueue k v).log = s.log ∧
    (s.setQueue k v).tack = s.tack :=
  ⟨rfl, rfl, rfl, rfl, rfl, rfl, rfl, rfl, rfl, rfl, rfl, rfl, rfl, rfl, rfl, rfl, rfl, rfl, rfl⟩

theorem State.edge_setEdge (s : State) (n : Nat) (v : Nat) (key : Nat) : (s.setEdge n v).edge key = if key = n then v
    else s.edge key := Tbl.get_set _ _ _ _ _
@[simp] theorem State.edge_setEdge_self (s : State) (n : Nat) (v : Nat) : (s.setEdge n v).edge n = v :=
    Tbl.get_set_self _ _ _ _
@[simp] theorem State.setEdge_frame (s : State) (n : Nat) (v : Nat) : (s.setEdge n v).pending = s.pending ∧ (s.setEdge
    n v).out = s.out ∧ (s.setEdge n v).stepNo = s.stepNo ∧ (s.setEdge n v).freeCtr = s.freeCtr ∧ (s.setEdge n v).pwr =
    s.pwr ∧ (s.setEdge n v).glb = s.glb ∧ (s.setEdge n v).slc = s.slc ∧ (s.setEdge n v).dlv = s.dlv ∧ (s.setEdge n
    v).gates = s.gates ∧ (s.setEdge n v).mbx = s.mbx ∧ (s.setEdge n v).tenant = s.tenant ∧ (s.setEdge n v).fw = s.fw ∧
    (s.setEdge n v).twin = s.twin ∧ (s.setEdge n v).link = s.link ∧ (s.setEdge n v).relay = s.relay ∧ (s.setEdge n
    v).tly = s.tly ∧ (s.setEdge n v).ctr = s.ctr ∧ (s.setEdge n v).log = s.log ∧ (s.setEdge n v).tack = s.tack :=
  ⟨rfl, rfl, rfl, rfl, rfl, rfl, rfl, rfl, rfl, rfl, rfl, rfl, rfl, rfl, rfl, rfl, rfl, rfl, rfl⟩

theorem State.sampler_setSampler (s : State) (n : Nat) (v : Sampler) (key : Nat) : (s.setSampler n v).sampler key = if
    key = n then v else s.sampler key := Tbl.get_set _ _ _ _ _
@[simp] theorem State.sampler_setSampler_self (s : State) (n : Nat) (v : Sampler) : (s.setSampler n v).sampler n = v
    := Tbl.get_set_self _ _ _ _
@[simp] theorem State.setSampler_frame (s : State) (n : Nat) (v : Sampler) : (s.setSampler n v).pending = s.pending ∧
    (s.setSampler n v).out = s.out ∧ (s.setSampler n v).stepNo = s.stepNo ∧ (s.setSampler n v).freeCtr = s.freeCtr ∧
    (s.setSampler n v).pwr = s.pwr ∧ (s.setSampler n v).glb = s.glb ∧ (s.setSampler n v).slc = s.slc ∧ (s.setSampler n
    v).dlv = s.dlv ∧ (s.setSampler n v).gates = s.gates ∧ (s.setSampler n v).mbx = s.mbx ∧ (s.setSampler n v).tenant =
    s.tenant ∧ (s.setSampler n v).fw = s.fw ∧ (s.setSampler n v).twin = s.twin ∧ (s.setSampler n v).link = s.link ∧
    (s.setSampler n v).relay = s.relay ∧ (s.setSampler n v).tly = s.tly ∧ (s.setSampler n v).ctr = s.ctr ∧
    (s.setSampler n v).log = s.log ∧ (s.setSampler n v).tack = s.tack :=
  ⟨rfl, rfl, rfl, rfl, rfl, rfl, rfl, rfl, rfl, rfl, rfl, rfl, rfl, rfl, rfl, rfl, rfl, rfl, rfl⟩

theorem State.main_setMain (s : State) (k : Nat) (v : SrcEntry) (key : Nat) : (s.setMain k v).main key = if key = k
    then v else s.main key := Tbl.get_set _ _ _ _ _
@[simp] theorem State.main_setMain_self (s : State) (k : Nat) (v : SrcEntry) : (s.setMain k v).main k = v :=
    Tbl.get_set_self _ _ _ _
@[simp] theorem State.setMain_frame (s : State) (k : Nat) (v : SrcEntry) : (s.setMain k v).pending = s.pending ∧
    (s.setMain k v).out = s.out ∧ (s.setMain k v).stepNo = s.stepNo ∧ (s.setMain k v).freeCtr = s.freeCtr ∧ (s.setMain
    k v).pwr = s.pwr ∧ (s.setMain k v).glb = s.glb ∧ (s.setMain k v).intake = s.intake ∧ (s.setMain k v).dlv = s.dlv ∧
    (s.setMain k v).gates = s.gates ∧ (s.setMain k v).mbx = s.mbx ∧ (s.setMain k v).tenant = s.tenant ∧ (s.setMain k
    v).fw = s.fw ∧ (s.setMain k v).twin = s.twin ∧ (s.setMain k v).link = s.link ∧ (s.setMain k v).relay = s.relay ∧
    (s.setMain k v).tly = s.tly ∧ (s.setMain k v).ctr = s.ctr ∧ (s.setMain k v).log = s.log ∧ (s.setMain k v).tack =
    s.tack :=
  ⟨rfl, rfl, rfl, rfl, rfl, rfl, rfl, rfl, rfl, rfl, rfl, rfl, rfl, rfl, rfl, rfl, rfl, rfl, rfl⟩

theorem State.dyn_setDyn (s : State) (k : Nat) (v : SrcDyn) (key : Nat) : (s.setDyn k v).dyn key = if key = k then v
    else s.dyn key := Tbl.get_set _ _ _ _ _
@[simp] theorem State.dyn_setDyn_self (s : State) (k : Nat) (v : SrcDyn) : (s.setDyn k v).dyn k = v :=
    Tbl.get_set_self _ _ _ _
@[simp] theorem State.setDyn_frame (s : State) (k : Nat) (v : SrcDyn) : (s.setDyn k v).pending = s.pending ∧ (s.setDyn
    k v).out = s.out ∧ (s.setDyn k v).stepNo = s.stepNo ∧ (s.setDyn k v).freeCtr = s.freeCtr ∧ (s.setDyn k v).pwr =
    s.pwr ∧ (s.setDyn k v).glb = s.glb ∧ (s.setDyn k v).intake = s.intake ∧ (s.setDyn k v).dlv = s.dlv ∧ (s.setDyn k
    v).gates = s.gates ∧ (s.setDyn k v).mbx = s.mbx ∧ (s.setDyn k v).tenant = s.tenant ∧ (s.setDyn k v).fw = s.fw ∧
    (s.setDyn k v).twin = s.twin ∧ (s.setDyn k v).link = s.link ∧ (s.setDyn k v).relay = s.relay ∧ (s.setDyn k v).tly
    = s.tly ∧ (s.setDyn k v).ctr = s.ctr ∧ (s.setDyn k v).log = s.log ∧ (s.setDyn k v).tack = s.tack :=
  ⟨rfl, rfl, rfl, rfl, rfl, rfl, rfl, rfl, rfl, rfl, rfl, rfl, rfl, rfl, rfl, rfl, rfl, rfl, rfl⟩

theorem State.slot_setSlot (s : State) (k : Nat) (v : Option Slot) (key : Nat) : (s.setSlot k v).slot key = if key = k
    then v else s.slot key := Tbl.get_set _ _ _ _ _
@[simp] theorem State.slot_setSlot_self (s : State) (k : Nat) (v : Option Slot) : (s.setSlot k v).slot k = v :=
    Tbl.get_set_self _ _ _ _
@[simp] theorem State.setSlot_frame (s : State) (k : Nat) (v : Option Slot) : (s.setSlot k v).pending = s.pending ∧
    (s.setSlot k v).out = s.out ∧ (s.setSlot k v).stepNo = s.stepNo ∧ (s.setSlot k v).freeCtr = s.freeCtr ∧ (s.setSlot
    k v).pwr = s.pwr ∧ (s.setSlot k v).glb = s.glb ∧ (s.setSlot k v).intake = s.intake ∧ (s.setSlot k v).dlv = s.dlv ∧
    (s.setSlot k v).gates = s.gates ∧ (s.setSlot k v).mbx = s.mbx ∧ (s.setSlot k v).tenant = s.tenant ∧ (s.setSlot k
    v).fw = s.fw ∧ (s.setSlot k v).twin = s.twin ∧ (s.setSlot k v).link = s.link ∧ (s.setSlot k v).relay = s.relay ∧
    (s.setSlot k v).tly = s.tly ∧ (s.setSlot k v).ctr = s.ctr ∧ (s.setSlot k v).log = s.log ∧ (s.setSlot k v).tack =
    s.tack :=
  ⟨rfl, rfl, rfl, rfl, rfl, rfl, rfl, rfl, rfl, rfl, rfl, rfl, rfl, rfl, rfl, rfl, rfl, rfl, rfl⟩

theorem State.shadow_setShadow (s : State) (k : Nat) (v : Option Shadow) (key : Nat) : (s.setShadow k v).shadow key =
    if key = k then v else s.shadow key := Tbl.get_set _ _ _ _ _
@[simp] theorem State.shadow_setShadow_self (s : State) (k : Nat) (v : Option Shadow) : (s.setShadow k v).shadow k = v
    := Tbl.get_set_self _ _ _ _
@[simp] theorem State.setShadow_frame (s : State) (k : Nat) (v : Option Shadow) : (s.setShadow k v).pending =
    s.pending ∧ (s.setShadow k v).out = s.out ∧ (s.setShadow k v).stepNo = s.stepNo ∧ (s.setShadow k v).freeCtr =
    s.freeCtr ∧ (s.setShadow k v).pwr = s.pwr ∧ (s.setShadow k v).glb = s.glb ∧ (s.setShadow k v).intake = s.intake ∧
    (s.setShadow k v).dlv = s.dlv ∧ (s.setShadow k v).gates = s.gates ∧ (s.setShadow k v).mbx = s.mbx ∧ (s.setShadow k
    v).tenant = s.tenant ∧ (s.setShadow k v).fw = s.fw ∧ (s.setShadow k v).twin = s.twin ∧ (s.setShadow k v).link =
    s.link ∧ (s.setShadow k v).relay = s.relay ∧ (s.setShadow k v).tly = s.tly ∧ (s.setShadow k v).ctr = s.ctr ∧
    (s.setShadow k v).log = s.log ∧ (s.setShadow k v).tack = s.tack :=
  ⟨rfl, rfl, rfl, rfl, rfl, rfl, rfl, rfl, rfl, rfl, rfl, rfl, rfl, rfl, rfl, rfl, rfl, rfl, rfl⟩

theorem State.owner_setOwner (s : State) (g : Nat) (v : BitVec 8) (key : Nat) : (s.setOwner g v).owner key = if key =
    g then v else s.owner key := Tbl.get_set _ _ _ _ _
@[simp] theorem State.owner_setOwner_self (s : State) (g : Nat) (v : BitVec 8) : (s.setOwner g v).owner g = v :=
    Tbl.get_set_self _ _ _ _
@[simp] theorem State.setOwner_frame (s : State) (g : Nat) (v : BitVec 8) : (s.setOwner g v).pending = s.pending ∧
    (s.setOwner g v).out = s.out ∧ (s.setOwner g v).stepNo = s.stepNo ∧ (s.setOwner g v).freeCtr = s.freeCtr ∧
    (s.setOwner g v).pwr = s.pwr ∧ (s.setOwner g v).glb = s.glb ∧ (s.setOwner g v).intake = s.intake ∧ (s.setOwner g
    v).dlv = s.dlv ∧ (s.setOwner g v).gates = s.gates ∧ (s.setOwner g v).mbx = s.mbx ∧ (s.setOwner g v).tenant =
    s.tenant ∧ (s.setOwner g v).fw = s.fw ∧ (s.setOwner g v).twin = s.twin ∧ (s.setOwner g v).link = s.link ∧
    (s.setOwner g v).relay = s.relay ∧ (s.setOwner g v).tly = s.tly ∧ (s.setOwner g v).ctr = s.ctr ∧ (s.setOwner g
    v).log = s.log ∧ (s.setOwner g v).tack = s.tack :=
  ⟨rfl, rfl, rfl, rfl, rfl, rfl, rfl, rfl, rfl, rfl, rfl, rfl, rfl, rfl, rfl, rfl, rfl, rfl, rfl⟩

theorem State.ringV_setRingV (s : State) (r : Nat) (v : Ver RingEnt) (key : Nat) : (s.setRingV r v).ringV key = if key
    = r then v else s.ringV key := Tbl.get_set _ _ _ _ _
@[simp] theorem State.ringV_setRingV_self (s : State) (r : Nat) (v : Ver RingEnt) : (s.setRingV r v).ringV r = v :=
    Tbl.get_set_self _ _ _ _
@[simp] theorem State.setRingV_frame (s : State) (r : Nat) (v : Ver RingEnt) : (s.setRingV r v).pending = s.pending ∧
    (s.setRingV r v).out = s.out ∧ (s.setRingV r v).stepNo = s.stepNo ∧ (s.setRingV r v).freeCtr = s.freeCtr ∧
    (s.setRingV r v).pwr = s.pwr ∧ (s.setRingV r v).glb = s.glb ∧ (s.setRingV r v).intake = s.intake ∧ (s.setRingV r
    v).slc = s.slc ∧ (s.setRingV r v).gates = s.gates ∧ (s.setRingV r v).mbx = s.mbx ∧ (s.setRingV r v).tenant =
    s.tenant ∧ (s.setRingV r v).fw = s.fw ∧ (s.setRingV r v).twin = s.twin ∧ (s.setRingV r v).link = s.link ∧
    (s.setRingV r v).relay = s.relay ∧ (s.setRingV r v).tly = s.tly ∧ (s.setRingV r v).ctr = s.ctr ∧ (s.setRingV r
    v).log = s.log ∧ (s.setRingV r v).tack = s.tack :=
  ⟨rfl, rfl, rfl, rfl, rfl, rfl, rfl, rfl, rfl, rfl, rfl, rfl, rfl, rfl, rfl, rfl, rfl, rfl, rfl⟩

theorem State.mcastV_setMcastV (s : State) (k : Nat) (v : Ver McSet) (key : Nat) : (s.setMcastV k v).mcastV key = if
    key = k then v else s.mcastV key := Tbl.get_set _ _ _ _ _
@[simp] theorem State.mcastV_setMcastV_self (s : State) (k : Nat) (v : Ver McSet) : (s.setMcastV k v).mcastV k = v :=
    Tbl.get_set_self _ _ _ _
@[simp] theorem State.setMcastV_frame (s : State) (k : Nat) (v : Ver McSet) : (s.setMcastV k v).pending = s.pending ∧
    (s.setMcastV k v).out = s.out ∧ (s.setMcastV k v).stepNo = s.stepNo ∧ (s.setMcastV k v).freeCtr = s.freeCtr ∧
    (s.setMcastV k v).pwr = s.pwr ∧ (s.setMcastV k v).glb = s.glb ∧ (s.setMcastV k v).intake = s.intake ∧ (s.setMcastV
    k v).slc = s.slc ∧ (s.setMcastV k v).gates = s.gates ∧ (s.setMcastV k v).mbx = s.mbx ∧ (s.setMcastV k v).tenant =
    s.tenant ∧ (s.setMcastV k v).fw = s.fw ∧ (s.setMcastV k v).twin = s.twin ∧ (s.setMcastV k v).link = s.link ∧
    (s.setMcastV k v).relay = s.relay ∧ (s.setMcastV k v).tly = s.tly ∧ (s.setMcastV k v).ctr = s.ctr ∧ (s.setMcastV k
    v).log = s.log ∧ (s.setMcastV k v).tack = s.tack :=
  ⟨rfl, rfl, rfl, rfl, rfl, rfl, rfl, rfl, rfl, rfl, rfl, rfl, rfl, rfl, rfl, rfl, rfl, rfl, rfl⟩

theorem State.remoteV_setRemoteV (s : State) (k : Nat) (v : Ver Reg64) (key : Nat) : (s.setRemoteV k v).remoteV key =
    if key = k then v else s.remoteV key := Tbl.get_set _ _ _ _ _
@[simp] theorem State.remoteV_setRemoteV_self (s : State) (k : Nat) (v : Ver Reg64) : (s.setRemoteV k v).remoteV k = v
    := Tbl.get_set_self _ _ _ _
@[simp] theorem State.setRemoteV_frame (s : State) (k : Nat) (v : Ver Reg64) : (s.setRemoteV k v).pending = s.pending
    ∧ (s.setRemoteV k v).out = s.out ∧ (s.setRemoteV k v).stepNo = s.stepNo ∧ (s.setRemoteV k v).freeCtr = s.freeCtr ∧
    (s.setRemoteV k v).pwr = s.pwr ∧ (s.setRemoteV k v).glb = s.glb ∧ (s.setRemoteV k v).intake = s.intake ∧
    (s.setRemoteV k v).slc = s.slc ∧ (s.setRemoteV k v).gates = s.gates ∧ (s.setRemoteV k v).mbx = s.mbx ∧
    (s.setRemoteV k v).tenant = s.tenant ∧ (s.setRemoteV k v).fw = s.fw ∧ (s.setRemoteV k v).twin = s.twin ∧
    (s.setRemoteV k v).link = s.link ∧ (s.setRemoteV k v).relay = s.relay ∧ (s.setRemoteV k v).tly = s.tly ∧
    (s.setRemoteV k v).ctr = s.ctr ∧ (s.setRemoteV k v).log = s.log ∧ (s.setRemoteV k v).tack = s.tack :=
  ⟨rfl, rfl, rfl, rfl, rfl, rfl, rfl, rfl, rfl, rfl, rfl, rfl, rfl, rfl, rfl, rfl, rfl, rfl, rfl⟩

theorem State.half_setHalf (s : State) (r : Nat) (v : Half) (key : Nat) : (s.setHalf r v).half key = if key = r then v
    else s.half key := Tbl.get_set _ _ _ _ _
@[simp] theorem State.half_setHalf_self (s : State) (r : Nat) (v : Half) : (s.setHalf r v).half r = v :=
    Tbl.get_set_self _ _ _ _
@[simp] theorem State.setHalf_frame (s : State) (r : Nat) (v : Half) : (s.setHalf r v).pending = s.pending ∧
    (s.setHalf r v).out = s.out ∧ (s.setHalf r v).stepNo = s.stepNo ∧ (s.setHalf r v).freeCtr = s.freeCtr ∧ (s.setHalf
    r v).pwr = s.pwr ∧ (s.setHalf r v).glb = s.glb ∧ (s.setHalf r v).intake = s.intake ∧ (s.setHalf r v).slc = s.slc ∧
    (s.setHalf r v).gates = s.gates ∧ (s.setHalf r v).mbx = s.mbx ∧ (s.setHalf r v).tenant = s.tenant ∧ (s.setHalf r
    v).fw = s.fw ∧ (s.setHalf r v).twin = s.twin ∧ (s.setHalf r v).link = s.link ∧ (s.setHalf r v).relay = s.relay ∧
    (s.setHalf r v).tly = s.tly ∧ (s.setHalf r v).ctr = s.ctr ∧ (s.setHalf r v).log = s.log ∧ (s.setHalf r v).tack =
    s.tack :=
  ⟨rfl, rfl, rfl, rfl, rfl, rfl, rfl, rfl, rfl, rfl, rfl, rfl, rfl, rfl, rfl, rfl, rfl, rfl, rfl⟩

theorem State.group_setGroup (s : State) (g : Nat) (v : Reg64) (key : Nat) : (s.setGroup g v).group key = if key = g
    then v else s.group key := Tbl.get_set _ _ _ _ _
@[simp] theorem State.group_setGroup_self (s : State) (g : Nat) (v : Reg64) : (s.setGroup g v).group g = v :=
    Tbl.get_set_self _ _ _ _
@[simp] theorem State.setGroup_frame (s : State) (g : Nat) (v : Reg64) : (s.setGroup g v).pending = s.pending ∧
    (s.setGroup g v).out = s.out ∧ (s.setGroup g v).stepNo = s.stepNo ∧ (s.setGroup g v).freeCtr = s.freeCtr ∧
    (s.setGroup g v).pwr = s.pwr ∧ (s.setGroup g v).glb = s.glb ∧ (s.setGroup g v).intake = s.intake ∧ (s.setGroup g
    v).slc = s.slc ∧ (s.setGroup g v).gates = s.gates ∧ (s.setGroup g v).mbx = s.mbx ∧ (s.setGroup g v).tenant =
    s.tenant ∧ (s.setGroup g v).fw = s.fw ∧ (s.setGroup g v).twin = s.twin ∧ (s.setGroup g v).link = s.link ∧
    (s.setGroup g v).relay = s.relay ∧ (s.setGroup g v).tly = s.tly ∧ (s.setGroup g v).ctr = s.ctr ∧ (s.setGroup g
    v).log = s.log ∧ (s.setGroup g v).tack = s.tack :=
  ⟨rfl, rfl, rfl, rfl, rfl, rfl, rfl, rfl, rfl, rfl, rfl, rfl, rfl, rfl, rfl, rfl, rfl, rfl, rfl⟩

theorem State.grun_setGrun (s : State) (g : Nat) (v : GrpRun) (key : Nat) : (s.setGrun g v).grun key = if key = g then
    v else s.grun key := Tbl.get_set _ _ _ _ _
@[simp] theorem State.grun_setGrun_self (s : State) (g : Nat) (v : GrpRun) : (s.setGrun g v).grun g = v :=
    Tbl.get_set_self _ _ _ _
@[simp] theorem State.setGrun_frame (s : State) (g : Nat) (v : GrpRun) : (s.setGrun g v).pending = s.pending ∧
    (s.setGrun g v).out = s.out ∧ (s.setGrun g v).stepNo = s.stepNo ∧ (s.setGrun g v).freeCtr = s.freeCtr ∧ (s.setGrun
    g v).pwr = s.pwr ∧ (s.setGrun g v).glb = s.glb ∧ (s.setGrun g v).intake = s.intake ∧ (s.setGrun g v).slc = s.slc ∧
    (s.setGrun g v).gates = s.gates ∧ (s.setGrun g v).mbx = s.mbx ∧ (s.setGrun g v).tenant = s.tenant ∧ (s.setGrun g
    v).fw = s.fw ∧ (s.setGrun g v).twin = s.twin ∧ (s.setGrun g v).link = s.link ∧ (s.setGrun g v).relay = s.relay ∧
    (s.setGrun g v).tly = s.tly ∧ (s.setGrun g v).ctr = s.ctr ∧ (s.setGrun g v).log = s.log ∧ (s.setGrun g v).tack =
    s.tack :=
  ⟨rfl, rfl, rfl, rfl, rfl, rfl, rfl, rfl, rfl, rfl, rfl, rfl, rfl, rfl, rfl, rfl, rfl, rfl, rfl⟩

theorem State.selQ_setSelQ (s : State) (l : Nat) (v : List Req) (key : Nat) : (s.setSelQ l v).selQ key = if key = l
    then v else s.selQ key := Tbl.get_set _ _ _ _ _
@[simp] theorem State.selQ_setSelQ_self (s : State) (l : Nat) (v : List Req) : (s.setSelQ l v).selQ l = v :=
    Tbl.get_set_self _ _ _ _
@[simp] theorem State.setSelQ_frame (s : State) (l : Nat) (v : List Req) : (s.setSelQ l v).pending = s.pending ∧
    (s.setSelQ l v).out = s.out ∧ (s.setSelQ l v).stepNo = s.stepNo ∧ (s.setSelQ l v).freeCtr = s.freeCtr ∧ (s.setSelQ
    l v).pwr = s.pwr ∧ (s.setSelQ l v).glb = s.glb ∧ (s.setSelQ l v).intake = s.intake ∧ (s.setSelQ l v).slc = s.slc ∧
    (s.setSelQ l v).gates = s.gates ∧ (s.setSelQ l v).mbx = s.mbx ∧ (s.setSelQ l v).tenant = s.tenant ∧ (s.setSelQ l
    v).fw = s.fw ∧ (s.setSelQ l v).twin = s.twin ∧ (s.setSelQ l v).link = s.link ∧ (s.setSelQ l v).relay = s.relay ∧
    (s.setSelQ l v).tly = s.tly ∧ (s.setSelQ l v).ctr = s.ctr ∧ (s.setSelQ l v).log = s.log ∧ (s.setSelQ l v).tack =
    s.tack :=
  ⟨rfl, rfl, rfl, rfl, rfl, rfl, rfl, rfl, rfl, rfl, rfl, rfl, rfl, rfl, rfl, rfl, rfl, rfl, rfl⟩

theorem State.lq_setLq (s : State) (l : Nat) (v : List Req) (key : Nat) : (s.setLq l v).lq key = if key = l then v
    else s.lq key := Tbl.get_set _ _ _ _ _
@[simp] theorem State.lq_setLq_self (s : State) (l : Nat) (v : List Req) : (s.setLq l v).lq l = v := Tbl.get_set_self
    _ _ _ _
@[simp] theorem State.setLq_frame (s : State) (l : Nat) (v : List Req) : (s.setLq l v).pending = s.pending ∧ (s.setLq
    l v).out = s.out ∧ (s.setLq l v).stepNo = s.stepNo ∧ (s.setLq l v).freeCtr = s.freeCtr ∧ (s.setLq l v).pwr = s.pwr
    ∧ (s.setLq l v).glb = s.glb ∧ (s.setLq l v).intake = s.intake ∧ (s.setLq l v).slc = s.slc ∧ (s.setLq l v).gates =
    s.gates ∧ (s.setLq l v).mbx = s.mbx ∧ (s.setLq l v).tenant = s.tenant ∧ (s.setLq l v).fw = s.fw ∧ (s.setLq l
    v).twin = s.twin ∧ (s.setLq l v).link = s.link ∧ (s.setLq l v).relay = s.relay ∧ (s.setLq l v).tly = s.tly ∧
    (s.setLq l v).ctr = s.ctr ∧ (s.setLq l v).log = s.log ∧ (s.setLq l v).tack = s.tack :=
  ⟨rfl, rfl, rfl, rfl, rfl, rfl, rfl, rfl, rfl, rfl, rfl, rfl, rfl, rfl, rfl, rfl, rfl, rfl, rfl⟩

theorem State.paceQ_setPaceQ (s : State) (l : Nat) (v : List Req) (key : Nat) : (s.setPaceQ l v).paceQ key = if key =
    l then v else s.paceQ key := Tbl.get_set _ _ _ _ _
@[simp] theorem State.paceQ_setPaceQ_self (s : State) (l : Nat) (v : List Req) : (s.setPaceQ l v).paceQ l = v :=
    Tbl.get_set_self _ _ _ _
@[simp] theorem State.setPaceQ_frame (s : State) (l : Nat) (v : List Req) : (s.setPaceQ l v).pending = s.pending ∧
    (s.setPaceQ l v).out = s.out ∧ (s.setPaceQ l v).stepNo = s.stepNo ∧ (s.setPaceQ l v).freeCtr = s.freeCtr ∧
    (s.setPaceQ l v).pwr = s.pwr ∧ (s.setPaceQ l v).glb = s.glb ∧ (s.setPaceQ l v).intake = s.intake ∧ (s.setPaceQ l
    v).slc = s.slc ∧ (s.setPaceQ l v).gates = s.gates ∧ (s.setPaceQ l v).mbx = s.mbx ∧ (s.setPaceQ l v).tenant =
    s.tenant ∧ (s.setPaceQ l v).fw = s.fw ∧ (s.setPaceQ l v).twin = s.twin ∧ (s.setPaceQ l v).link = s.link ∧
    (s.setPaceQ l v).relay = s.relay ∧ (s.setPaceQ l v).tly = s.tly ∧ (s.setPaceQ l v).ctr = s.ctr ∧ (s.setPaceQ l
    v).log = s.log ∧ (s.setPaceQ l v).tack = s.tack :=
  ⟨rfl, rfl, rfl, rfl, rfl, rfl, rfl, rfl, rfl, rfl, rfl, rfl, rfl, rfl, rfl, rfl, rfl, rfl, rfl⟩

theorem State.mc_setMc (s : State) (k : Nat) (v : Option McRun) (key : Nat) : (s.setMc k v).mc key = if key = k then v
    else s.mc key := Tbl.get_set _ _ _ _ _
@[simp] theorem State.mc_setMc_self (s : State) (k : Nat) (v : Option McRun) : (s.setMc k v).mc k = v :=
    Tbl.get_set_self _ _ _ _
@[simp] theorem State.setMc_frame (s : State) (k : Nat) (v : Option McRun) : (s.setMc k v).pending = s.pending ∧
    (s.setMc k v).out = s.out ∧ (s.setMc k v).stepNo = s.stepNo ∧ (s.setMc k v).freeCtr = s.freeCtr ∧ (s.setMc k
    v).pwr = s.pwr ∧ (s.setMc k v).glb = s.glb ∧ (s.setMc k v).intake = s.intake ∧ (s.setMc k v).slc = s.slc ∧
    (s.setMc k v).gates = s.gates ∧ (s.setMc k v).mbx = s.mbx ∧ (s.setMc k v).tenant = s.tenant ∧ (s.setMc k v).fw =
    s.fw ∧ (s.setMc k v).twin = s.twin ∧ (s.setMc k v).link = s.link ∧ (s.setMc k v).relay = s.relay ∧ (s.setMc k
    v).tly = s.tly ∧ (s.setMc k v).ctr = s.ctr ∧ (s.setMc k v).log = s.log ∧ (s.setMc k v).tack = s.tack :=
  ⟨rfl, rfl, rfl, rfl, rfl, rfl, rfl, rfl, rfl, rfl, rfl, rfl, rfl, rfl, rfl, rfl, rfl, rfl, rfl⟩

theorem State.grants_setGrants (s : State) (c : Nat) (v : List Grant) (key : Nat) : (s.setGrants c v).grants key = if
    key = c then v else s.grants key := Tbl.get_set _ _ _ _ _
@[simp] theorem State.grants_setGrants_self (s : State) (c : Nat) (v : List Grant) : (s.setGrants c v).grants c = v :=
    Tbl.get_set_self _ _ _ _
@[simp] theorem State.setGrants_frame (s : State) (c : Nat) (v : List Grant) : (s.setGrants c v).pending = s.pending ∧
    (s.setGrants c v).out = s.out ∧ (s.setGrants c v).stepNo = s.stepNo ∧ (s.setGrants c v).freeCtr = s.freeCtr ∧
    (s.setGrants c v).pwr = s.pwr ∧ (s.setGrants c v).glb = s.glb ∧ (s.setGrants c v).intake = s.intake ∧ (s.setGrants
    c v).slc = s.slc ∧ (s.setGrants c v).gates = s.gates ∧ (s.setGrants c v).mbx = s.mbx ∧ (s.setGrants c v).tenant =
    s.tenant ∧ (s.setGrants c v).fw = s.fw ∧ (s.setGrants c v).twin = s.twin ∧ (s.setGrants c v).link = s.link ∧
    (s.setGrants c v).relay = s.relay ∧ (s.setGrants c v).tly = s.tly ∧ (s.setGrants c v).ctr = s.ctr ∧ (s.setGrants c
    v).log = s.log ∧ (s.setGrants c v).tack = s.tack :=
  ⟨rfl, rfl, rfl, rfl, rfl, rfl, rfl, rfl, rfl, rfl, rfl, rfl, rfl, rfl, rfl, rfl, rfl, rfl, rfl⟩

theorem State.grantCount_setGrantCount (s : State) (c : Nat) (v : Nat) (key : Nat) : (s.setGrantCount c v).grantCount
    key = if key = c then v else s.grantCount key := Tbl.get_set _ _ _ _ _
@[simp] theorem State.grantCount_setGrantCount_self (s : State) (c : Nat) (v : Nat) : (s.setGrantCount c v).grantCount
    c = v := Tbl.get_set_self _ _ _ _
@[simp] theorem State.setGrantCount_frame (s : State) (c : Nat) (v : Nat) : (s.setGrantCount c v).pending = s.pending
    ∧ (s.setGrantCount c v).out = s.out ∧ (s.setGrantCount c v).stepNo = s.stepNo ∧ (s.setGrantCount c v).freeCtr =
    s.freeCtr ∧ (s.setGrantCount c v).pwr = s.pwr ∧ (s.setGrantCount c v).glb = s.glb ∧ (s.setGrantCount c v).intake =
    s.intake ∧ (s.setGrantCount c v).slc = s.slc ∧ (s.setGrantCount c v).gates = s.gates ∧ (s.setGrantCount c v).mbx =
    s.mbx ∧ (s.setGrantCount c v).tenant = s.tenant ∧ (s.setGrantCount c v).fw = s.fw ∧ (s.setGrantCount c v).twin =
    s.twin ∧ (s.setGrantCount c v).link = s.link ∧ (s.setGrantCount c v).relay = s.relay ∧ (s.setGrantCount c v).tly =
    s.tly ∧ (s.setGrantCount c v).ctr = s.ctr ∧ (s.setGrantCount c v).log = s.log ∧ (s.setGrantCount c v).tack =
    s.tack :=
  ⟨rfl, rfl, rfl, rfl, rfl, rfl, rfl, rfl, rfl, rfl, rfl, rfl, rfl, rfl, rfl, rfl, rfl, rfl, rfl⟩

theorem State.outst_setOutst (s : State) (c t : Nat) (v : Option Outst) (ch tag : Nat) :
    (s.setOutst c t v).outst ch tag = if 4096 * ch + tag = 4096 * c + t then v else s.outst ch tag := Tbl.get_set _ _ _ _ _
@[simp] theorem State.outst_setOutst_self (s : State) (c t : Nat) (v : Option Outst) : (s.setOutst c t v).outst c t = v :=
  Tbl.get_set_self _ _ _ _
@[simp] theorem State.setOutst_frame (s : State) (c t : Nat) (v : Option Outst) : (s.setOutst c t v).pending =
    s.pending ∧ (s.setOutst c t v).out = s.out ∧ (s.setOutst c t v).stepNo = s.stepNo ∧ (s.setOutst c t v).freeCtr =
    s.freeCtr ∧ (s.setOutst c t v).pwr = s.pwr ∧ (s.setOutst c t v).glb = s.glb ∧ (s.setOutst c t v).intake = s.intake
    ∧ (s.setOutst c t v).slc = s.slc ∧ (s.setOutst c t v).gates = s.gates ∧ (s.setOutst c t v).mbx = s.mbx ∧
    (s.setOutst c t v).tenant = s.tenant ∧ (s.setOutst c t v).fw = s.fw ∧ (s.setOutst c t v).twin = s.twin ∧
    (s.setOutst c t v).link = s.link ∧ (s.setOutst c t v).relay = s.relay ∧ (s.setOutst c t v).tly = s.tly ∧
    (s.setOutst c t v).ctr = s.ctr ∧ (s.setOutst c t v).log = s.log ∧ (s.setOutst c t v).tack = s.tack :=
  ⟨rfl, rfl, rfl, rfl, rfl, rfl, rfl, rfl, rfl, rfl, rfl, rfl, rfl, rfl, rfl, rfl, rfl, rfl, rfl⟩

theorem State.bucket_setBucket (s : State) (r : Nat) (v : Nat) (key : Nat) : (s.setBucket r v).bucket key = if key = r
    then v else s.bucket key := Tbl.get_set _ _ _ _ _
@[simp] theorem State.bucket_setBucket_self (s : State) (r : Nat) (v : Nat) : (s.setBucket r v).bucket r = v :=
    Tbl.get_set_self _ _ _ _
@[simp] theorem State.setBucket_frame (s : State) (r : Nat) (v : Nat) : (s.setBucket r v).pending = s.pending ∧
    (s.setBucket r v).out = s.out ∧ (s.setBucket r v).stepNo = s.stepNo ∧ (s.setBucket r v).freeCtr = s.freeCtr ∧
    (s.setBucket r v).pwr = s.pwr ∧ (s.setBucket r v).glb = s.glb ∧ (s.setBucket r v).intake = s.intake ∧ (s.setBucket
    r v).slc = s.slc ∧ (s.setBucket r v).gates = s.gates ∧ (s.setBucket r v).mbx = s.mbx ∧ (s.setBucket r v).tenant =
    s.tenant ∧ (s.setBucket r v).fw = s.fw ∧ (s.setBucket r v).twin = s.twin ∧ (s.setBucket r v).link = s.link ∧
    (s.setBucket r v).relay = s.relay ∧ (s.setBucket r v).tly = s.tly ∧ (s.setBucket r v).ctr = s.ctr ∧ (s.setBucket r
    v).log = s.log ∧ (s.setBucket r v).tack = s.tack :=
  ⟨rfl, rfl, rfl, rfl, rfl, rfl, rfl, rfl, rfl, rfl, rfl, rfl, rfl, rfl, rfl, rfl, rfl, rfl, rfl⟩

theorem State.noteQ_setNoteQ (s : State) (c : Nat) (v : List Note) (key : Nat) : (s.setNoteQ c v).noteQ key = if key =
    c then v else s.noteQ key := Tbl.get_set _ _ _ _ _
@[simp] theorem State.noteQ_setNoteQ_self (s : State) (c : Nat) (v : List Note) : (s.setNoteQ c v).noteQ c = v :=
    Tbl.get_set_self _ _ _ _
@[simp] theorem State.setNoteQ_frame (s : State) (c : Nat) (v : List Note) : (s.setNoteQ c v).pending = s.pending ∧
    (s.setNoteQ c v).out = s.out ∧ (s.setNoteQ c v).stepNo = s.stepNo ∧ (s.setNoteQ c v).freeCtr = s.freeCtr ∧
    (s.setNoteQ c v).pwr = s.pwr ∧ (s.setNoteQ c v).glb = s.glb ∧ (s.setNoteQ c v).intake = s.intake ∧ (s.setNoteQ c
    v).slc = s.slc ∧ (s.setNoteQ c v).gates = s.gates ∧ (s.setNoteQ c v).mbx = s.mbx ∧ (s.setNoteQ c v).tenant =
    s.tenant ∧ (s.setNoteQ c v).fw = s.fw ∧ (s.setNoteQ c v).twin = s.twin ∧ (s.setNoteQ c v).link = s.link ∧
    (s.setNoteQ c v).relay = s.relay ∧ (s.setNoteQ c v).tly = s.tly ∧ (s.setNoteQ c v).ctr = s.ctr ∧ (s.setNoteQ c
    v).log = s.log ∧ (s.setNoteQ c v).tack = s.tack :=
  ⟨rfl, rfl, rfl, rfl, rfl, rfl, rfl, rfl, rfl, rfl, rfl, rfl, rfl, rfl, rfl, rfl, rfl, rfl, rfl⟩

theorem State.starved_setStarved (s : State) (c : Nat) (v : Nat) (key : Nat) : (s.setStarved c v).starved key = if key
    = c then v else s.starved key := Tbl.get_set _ _ _ _ _
@[simp] theorem State.starved_setStarved_self (s : State) (c : Nat) (v : Nat) : (s.setStarved c v).starved c = v :=
    Tbl.get_set_self _ _ _ _
@[simp] theorem State.setStarved_frame (s : State) (c : Nat) (v : Nat) : (s.setStarved c v).pending = s.pending ∧
    (s.setStarved c v).out = s.out ∧ (s.setStarved c v).stepNo = s.stepNo ∧ (s.setStarved c v).freeCtr = s.freeCtr ∧
    (s.setStarved c v).pwr = s.pwr ∧ (s.setStarved c v).glb = s.glb ∧ (s.setStarved c v).intake = s.intake ∧
    (s.setStarved c v).slc = s.slc ∧ (s.setStarved c v).gates = s.gates ∧ (s.setStarved c v).mbx = s.mbx ∧
    (s.setStarved c v).tenant = s.tenant ∧ (s.setStarved c v).fw = s.fw ∧ (s.setStarved c v).twin = s.twin ∧
    (s.setStarved c v).link = s.link ∧ (s.setStarved c v).relay = s.relay ∧ (s.setStarved c v).tly = s.tly ∧
    (s.setStarved c v).ctr = s.ctr ∧ (s.setStarved c v).log = s.log ∧ (s.setStarved c v).tack = s.tack :=
  ⟨rfl, rfl, rfl, rfl, rfl, rfl, rfl, rfl, rfl, rfl, rfl, rfl, rfl, rfl, rfl, rfl, rfl, rfl, rfl⟩

theorem State.region_setRegion (s : State) (k : Nat) (v : Region) (key : Nat) : (s.setRegion k v).region key = if key
    = k then v else s.region key := Tbl.get_set _ _ _ _ _
@[simp] theorem State.region_setRegion_self (s : State) (k : Nat) (v : Region) : (s.setRegion k v).region k = v :=
    Tbl.get_set_self _ _ _ _
@[simp] theorem State.setRegion_frame (s : State) (k : Nat) (v : Region) : (s.setRegion k v).pending = s.pending ∧
    (s.setRegion k v).out = s.out ∧ (s.setRegion k v).stepNo = s.stepNo ∧ (s.setRegion k v).freeCtr = s.freeCtr ∧
    (s.setRegion k v).pwr = s.pwr ∧ (s.setRegion k v).glb = s.glb ∧ (s.setRegion k v).intake = s.intake ∧ (s.setRegion
    k v).slc = s.slc ∧ (s.setRegion k v).dlv = s.dlv ∧ (s.setRegion k v).mbx = s.mbx ∧ (s.setRegion k v).tenant =
    s.tenant ∧ (s.setRegion k v).fw = s.fw ∧ (s.setRegion k v).twin = s.twin ∧ (s.setRegion k v).link = s.link ∧
    (s.setRegion k v).relay = s.relay ∧ (s.setRegion k v).tly = s.tly ∧ (s.setRegion k v).ctr = s.ctr ∧ (s.setRegion k
    v).log = s.log ∧ (s.setRegion k v).tack = s.tack :=
  ⟨rfl, rfl, rfl, rfl, rfl, rfl, rfl, rfl, rfl, rfl, rfl, rfl, rfl, rfl, rfl, rfl, rfl, rfl, rfl⟩

theorem State.stagedRegion_setStagedRegion (s : State) (k : Nat) (v : Option Region) (key : Nat) : (s.setStagedRegion
    k v).stagedRegion key = if key = k then v else s.stagedRegion key := Tbl.get_set _ _ _ _ _
@[simp] theorem State.stagedRegion_setStagedRegion_self (s : State) (k : Nat) (v : Option Region) : (s.setStagedRegion
    k v).stagedRegion k = v := Tbl.get_set_self _ _ _ _
@[simp] theorem State.setStagedRegion_frame (s : State) (k : Nat) (v : Option Region) : (s.setStagedRegion k
    v).pending = s.pending ∧ (s.setStagedRegion k v).out = s.out ∧ (s.setStagedRegion k v).stepNo = s.stepNo ∧
    (s.setStagedRegion k v).freeCtr = s.freeCtr ∧ (s.setStagedRegion k v).pwr = s.pwr ∧ (s.setStagedRegion k v).glb =
    s.glb ∧ (s.setStagedRegion k v).intake = s.intake ∧ (s.setStagedRegion k v).slc = s.slc ∧ (s.setStagedRegion k
    v).dlv = s.dlv ∧ (s.setStagedRegion k v).mbx = s.mbx ∧ (s.setStagedRegion k v).tenant = s.tenant ∧
    (s.setStagedRegion k v).fw = s.fw ∧ (s.setStagedRegion k v).twin = s.twin ∧ (s.setStagedRegion k v).link = s.link
    ∧ (s.setStagedRegion k v).relay = s.relay ∧ (s.setStagedRegion k v).tly = s.tly ∧ (s.setStagedRegion k v).ctr =
    s.ctr ∧ (s.setStagedRegion k v).log = s.log ∧ (s.setStagedRegion k v).tack = s.tack :=
  ⟨rfl, rfl, rfl, rfl, rfl, rfl, rfl, rfl, rfl, rfl, rfl, rfl, rfl, rfl, rfl, rfl, rfl, rfl, rfl⟩

theorem State.violLast_setViolLast (s : State) (t : Nat) (v : BitVec 256) (key : Nat) : (s.setViolLast t v).violLast
    key = if key = t then v else s.violLast key := Tbl.get_set _ _ _ _ _
@[simp] theorem State.violLast_setViolLast_self (s : State) (t : Nat) (v : BitVec 256) : (s.setViolLast t v).violLast
    t = v := Tbl.get_set_self _ _ _ _
@[simp] theorem State.setViolLast_frame (s : State) (t : Nat) (v : BitVec 256) : (s.setViolLast t v).pending =
    s.pending ∧ (s.setViolLast t v).out = s.out ∧ (s.setViolLast t v).stepNo = s.stepNo ∧ (s.setViolLast t v).freeCtr
    = s.freeCtr ∧ (s.setViolLast t v).pwr = s.pwr ∧ (s.setViolLast t v).glb = s.glb ∧ (s.setViolLast t v).intake =
    s.intake ∧ (s.setViolLast t v).slc = s.slc ∧ (s.setViolLast t v).dlv = s.dlv ∧ (s.setViolLast t v).mbx = s.mbx ∧
    (s.setViolLast t v).tenant = s.tenant ∧ (s.setViolLast t v).fw = s.fw ∧ (s.setViolLast t v).twin = s.twin ∧
    (s.setViolLast t v).link = s.link ∧ (s.setViolLast t v).relay = s.relay ∧ (s.setViolLast t v).tly = s.tly ∧
    (s.setViolLast t v).ctr = s.ctr ∧ (s.setViolLast t v).log = s.log ∧ (s.setViolLast t v).tack = s.tack :=
  ⟨rfl, rfl, rfl, rfl, rfl, rfl, rfl, rfl, rfl, rfl, rfl, rfl, rfl, rfl, rfl, rfl, rfl, rfl, rfl⟩

theorem State.tenantR_setTenantR (s : State) (t : Nat) (v : Tenant) (key : Nat) : (s.setTenantR t v).tenantR key = if
    key = t then v else s.tenantR key := Tbl.get_set _ _ _ _ _
@[simp] theorem State.tenantR_setTenantR_self (s : State) (t : Nat) (v : Tenant) : (s.setTenantR t v).tenantR t = v :=
    Tbl.get_set_self _ _ _ _
@[simp] theorem State.setTenantR_frame (s : State) (t : Nat) (v : Tenant) : (s.setTenantR t v).pending = s.pending ∧
    (s.setTenantR t v).out = s.out ∧ (s.setTenantR t v).stepNo = s.stepNo ∧ (s.setTenantR t v).freeCtr = s.freeCtr ∧
    (s.setTenantR t v).pwr = s.pwr ∧ (s.setTenantR t v).glb = s.glb ∧ (s.setTenantR t v).intake = s.intake ∧
    (s.setTenantR t v).slc = s.slc ∧ (s.setTenantR t v).dlv = s.dlv ∧ (s.setTenantR t v).gates = s.gates ∧
    (s.setTenantR t v).mbx = s.mbx ∧ (s.setTenantR t v).fw = s.fw ∧ (s.setTenantR t v).twin = s.twin ∧ (s.setTenantR t
    v).link = s.link ∧ (s.setTenantR t v).relay = s.relay ∧ (s.setTenantR t v).tly = s.tly ∧ (s.setTenantR t v).ctr =
    s.ctr ∧ (s.setTenantR t v).log = s.log ∧ (s.setTenantR t v).tack = s.tack :=
  ⟨rfl, rfl, rfl, rfl, rfl, rfl, rfl, rfl, rfl, rfl, rfl, rfl, rfl, rfl, rfl, rfl, rfl, rfl, rfl⟩

theorem State.mailbox_setMailbox (s : State) (k : Nat) (v : Mailbox) (key : Nat) : (s.setMailbox k v).mailbox key = if
    key = k then v else s.mailbox key := Tbl.get_set _ _ _ _ _
@[simp] theorem State.mailbox_setMailbox_self (s : State) (k : Nat) (v : Mailbox) : (s.setMailbox k v).mailbox k = v
    := Tbl.get_set_self _ _ _ _
@[simp] theorem State.setMailbox_frame (s : State) (k : Nat) (v : Mailbox) : (s.setMailbox k v).pending = s.pending ∧
    (s.setMailbox k v).out = s.out ∧ (s.setMailbox k v).stepNo = s.stepNo ∧ (s.setMailbox k v).freeCtr = s.freeCtr ∧
    (s.setMailbox k v).pwr = s.pwr ∧ (s.setMailbox k v).glb = s.glb ∧ (s.setMailbox k v).intake = s.intake ∧
    (s.setMailbox k v).slc = s.slc ∧ (s.setMailbox k v).dlv = s.dlv ∧ (s.setMailbox k v).gates = s.gates ∧
    (s.setMailbox k v).tenant = s.tenant ∧ (s.setMailbox k v).fw = s.fw ∧ (s.setMailbox k v).twin = s.twin ∧
    (s.setMailbox k v).link = s.link ∧ (s.setMailbox k v).relay = s.relay ∧ (s.setMailbox k v).tly = s.tly ∧
    (s.setMailbox k v).ctr = s.ctr ∧ (s.setMailbox k v).log = s.log ∧ (s.setMailbox k v).tack = s.tack :=
  ⟨rfl, rfl, rfl, rfl, rfl, rfl, rfl, rfl, rfl, rfl, rfl, rfl, rfl, rfl, rfl, rfl, rfl, rfl, rfl⟩

theorem State.linkAt_setLink (s : State) (k : Nat) (v : Link) (key : Nat) : (s.setLink k v).linkAt key = if key = k
    then v else s.linkAt key := Tbl.get_set _ _ _ _ _
@[simp] theorem State.linkAt_setLink_self (s : State) (k : Nat) (v : Link) : (s.setLink k v).linkAt k = v :=
    Tbl.get_set_self _ _ _ _
@[simp] theorem State.setLink_frame (s : State) (k : Nat) (v : Link) : (s.setLink k v).pending = s.pending ∧
    (s.setLink k v).out = s.out ∧ (s.setLink k v).stepNo = s.stepNo ∧ (s.setLink k v).freeCtr = s.freeCtr ∧ (s.setLink
    k v).pwr = s.pwr ∧ (s.setLink k v).glb = s.glb ∧ (s.setLink k v).intake = s.intake ∧ (s.setLink k v).slc = s.slc ∧
    (s.setLink k v).dlv = s.dlv ∧ (s.setLink k v).gates = s.gates ∧ (s.setLink k v).mbx = s.mbx ∧ (s.setLink k
    v).tenant = s.tenant ∧ (s.setLink k v).fw = s.fw ∧ (s.setLink k v).twin = s.twin ∧ (s.setLink k v).relay = s.relay
    ∧ (s.setLink k v).tly = s.tly ∧ (s.setLink k v).ctr = s.ctr ∧ (s.setLink k v).log = s.log ∧ (s.setLink k v).tack =
    s.tack :=
  ⟨rfl, rfl, rfl, rfl, rfl, rfl, rfl, rfl, rfl, rfl, rfl, rfl, rfl, rfl, rfl, rfl, rfl, rfl, rfl⟩

theorem State.tackAt_setTack (s : State) (n : Nat) (v : Tack) (key : Nat) : (s.setTack n v).tackAt key = if key = n
    then v else s.tackAt key := Tbl.get_set _ _ _ _ _
@[simp] theorem State.tackAt_setTack_self (s : State) (n : Nat) (v : Tack) : (s.setTack n v).tackAt n = v :=
    Tbl.get_set_self _ _ _ _
@[simp] theorem State.setTack_frame (s : State) (n : Nat) (v : Tack) : (s.setTack n v).pending = s.pending ∧
    (s.setTack n v).out = s.out ∧ (s.setTack n v).stepNo = s.stepNo ∧ (s.setTack n v).freeCtr = s.freeCtr ∧ (s.setTack
    n v).pwr = s.pwr ∧ (s.setTack n v).glb = s.glb ∧ (s.setTack n v).intake = s.intake ∧ (s.setTack n v).slc = s.slc ∧
    (s.setTack n v).dlv = s.dlv ∧ (s.setTack n v).gates = s.gates ∧ (s.setTack n v).mbx = s.mbx ∧ (s.setTack n
    v).tenant = s.tenant ∧ (s.setTack n v).fw = s.fw ∧ (s.setTack n v).twin = s.twin ∧ (s.setTack n v).link = s.link ∧
    (s.setTack n v).relay = s.relay ∧ (s.setTack n v).tly = s.tly ∧ (s.setTack n v).ctr = s.ctr ∧ (s.setTack n v).log
    = s.log :=
  ⟨rfl, rfl, rfl, rfl, rfl, rfl, rfl, rfl, rfl, rfl, rfl, rfl, rfl, rfl, rfl, rfl, rfl, rfl, rfl⟩

theorem State.tallyAt_setTally (s : State) (t : Nat) (v : Tally) (key : Nat) : (s.setTally t v).tallyAt key = if key =
    t then v else s.tallyAt key := Tbl.get_set _ _ _ _ _
@[simp] theorem State.tallyAt_setTally_self (s : State) (t : Nat) (v : Tally) : (s.setTally t v).tallyAt t = v :=
    Tbl.get_set_self _ _ _ _
@[simp] theorem State.setTally_frame (s : State) (t : Nat) (v : Tally) : (s.setTally t v).pending = s.pending ∧
    (s.setTally t v).out = s.out ∧ (s.setTally t v).stepNo = s.stepNo ∧ (s.setTally t v).freeCtr = s.freeCtr ∧
    (s.setTally t v).pwr = s.pwr ∧ (s.setTally t v).glb = s.glb ∧ (s.setTally t v).intake = s.intake ∧ (s.setTally t
    v).slc = s.slc ∧ (s.setTally t v).dlv = s.dlv ∧ (s.setTally t v).gates = s.gates ∧ (s.setTally t v).mbx = s.mbx ∧
    (s.setTally t v).tenant = s.tenant ∧ (s.setTally t v).fw = s.fw ∧ (s.setTally t v).twin = s.twin ∧ (s.setTally t
    v).link = s.link ∧ (s.setTally t v).relay = s.relay ∧ (s.setTally t v).ctr = s.ctr ∧ (s.setTally t v).log = s.log
    ∧ (s.setTally t v).tack = s.tack :=
  ⟨rfl, rfl, rfl, rfl, rfl, rfl, rfl, rfl, rfl, rfl, rfl, rfl, rfl, rfl, rfl, rfl, rfl, rfl, rfl⟩

theorem State.ledgerAt_setLedger (s : State) (t : Nat) (v : Ledger) (key : Nat) : (s.setLedger t v).ledgerAt key = if
    key = t then v else s.ledgerAt key := Tbl.get_set _ _ _ _ _
@[simp] theorem State.ledgerAt_setLedger_self (s : State) (t : Nat) (v : Ledger) : (s.setLedger t v).ledgerAt t = v :=
    Tbl.get_set_self _ _ _ _
@[simp] theorem State.setLedger_frame (s : State) (t : Nat) (v : Ledger) : (s.setLedger t v).pending = s.pending ∧
    (s.setLedger t v).out = s.out ∧ (s.setLedger t v).stepNo = s.stepNo ∧ (s.setLedger t v).freeCtr = s.freeCtr ∧
    (s.setLedger t v).pwr = s.pwr ∧ (s.setLedger t v).glb = s.glb ∧ (s.setLedger t v).intake = s.intake ∧ (s.setLedger
    t v).slc = s.slc ∧ (s.setLedger t v).dlv = s.dlv ∧ (s.setLedger t v).gates = s.gates ∧ (s.setLedger t v).mbx =
    s.mbx ∧ (s.setLedger t v).tenant = s.tenant ∧ (s.setLedger t v).fw = s.fw ∧ (s.setLedger t v).twin = s.twin ∧
    (s.setLedger t v).link = s.link ∧ (s.setLedger t v).relay = s.relay ∧ (s.setLedger t v).ctr = s.ctr ∧ (s.setLedger
    t v).log = s.log ∧ (s.setLedger t v).tack = s.tack :=
  ⟨rfl, rfl, rfl, rfl, rfl, rfl, rfl, rfl, rfl, rfl, rfl, rfl, rfl, rfl, rfl, rfl, rfl, rfl, rfl⟩

theorem State.weight_setWeight (s : State) (j : Nat) (v : Reg64) (key : Nat) : (s.setWeight j v).weight key = if key =
    j then v else s.weight key := Tbl.get_set _ _ _ _ _
@[simp] theorem State.weight_setWeight_self (s : State) (j : Nat) (v : Reg64) : (s.setWeight j v).weight j = v :=
    Tbl.get_set_self _ _ _ _
@[simp] theorem State.setWeight_frame (s : State) (j : Nat) (v : Reg64) : (s.setWeight j v).pending = s.pending ∧
    (s.setWeight j v).out = s.out ∧ (s.setWeight j v).stepNo = s.stepNo ∧ (s.setWeight j v).freeCtr = s.freeCtr ∧
    (s.setWeight j v).pwr = s.pwr ∧ (s.setWeight j v).glb = s.glb ∧ (s.setWeight j v).intake = s.intake ∧ (s.setWeight
    j v).slc = s.slc ∧ (s.setWeight j v).dlv = s.dlv ∧ (s.setWeight j v).gates = s.gates ∧ (s.setWeight j v).mbx =
    s.mbx ∧ (s.setWeight j v).tenant = s.tenant ∧ (s.setWeight j v).fw = s.fw ∧ (s.setWeight j v).twin = s.twin ∧
    (s.setWeight j v).link = s.link ∧ (s.setWeight j v).relay = s.relay ∧ (s.setWeight j v).ctr = s.ctr ∧ (s.setWeight
    j v).log = s.log ∧ (s.setWeight j v).tack = s.tack :=
  ⟨rfl, rfl, rfl, rfl, rfl, rfl, rfl, rfl, rfl, rfl, rfl, rfl, rfl, rfl, rfl, rfl, rfl, rfl, rfl⟩

theorem State.cnt_setCnt (s : State) (off : Nat) (v : Count) (key : Nat) : (s.setCnt off v).cnt key = if key = off
    then v else s.cnt key := Tbl.get_set _ _ _ _ _
@[simp] theorem State.cnt_setCnt_self (s : State) (off : Nat) (v : Count) : (s.setCnt off v).cnt off = v :=
    Tbl.get_set_self _ _ _ _
@[simp] theorem State.setCnt_frame (s : State) (off : Nat) (v : Count) : (s.setCnt off v).pending = s.pending ∧
    (s.setCnt off v).out = s.out ∧ (s.setCnt off v).stepNo = s.stepNo ∧ (s.setCnt off v).freeCtr = s.freeCtr ∧
    (s.setCnt off v).pwr = s.pwr ∧ (s.setCnt off v).glb = s.glb ∧ (s.setCnt off v).intake = s.intake ∧ (s.setCnt off
    v).slc = s.slc ∧ (s.setCnt off v).dlv = s.dlv ∧ (s.setCnt off v).gates = s.gates ∧ (s.setCnt off v).mbx = s.mbx ∧
    (s.setCnt off v).tenant = s.tenant ∧ (s.setCnt off v).fw = s.fw ∧ (s.setCnt off v).twin = s.twin ∧ (s.setCnt off
    v).link = s.link ∧ (s.setCnt off v).relay = s.relay ∧ (s.setCnt off v).tly = s.tly ∧ (s.setCnt off v).log = s.log
    ∧ (s.setCnt off v).tack = s.tack :=
  ⟨rfl, rfl, rfl, rfl, rfl, rfl, rfl, rfl, rfl, rfl, rfl, rfl, rfl, rfl, rfl, rfl, rfl, rfl, rfl⟩

theorem State.ctrSel_setCtrSel (s : State) (d : Nat) (v : Reg64) (key : Nat) : (s.setCtrSel d v).ctrSel key = if key =
    d then v else s.ctrSel key := Tbl.get_set _ _ _ _ _
@[simp] theorem State.ctrSel_setCtrSel_self (s : State) (d : Nat) (v : Reg64) : (s.setCtrSel d v).ctrSel d = v :=
    Tbl.get_set_self _ _ _ _
@[simp] theorem State.setCtrSel_frame (s : State) (d : Nat) (v : Reg64) : (s.setCtrSel d v).pending = s.pending ∧
    (s.setCtrSel d v).out = s.out ∧ (s.setCtrSel d v).stepNo = s.stepNo ∧ (s.setCtrSel d v).freeCtr = s.freeCtr ∧
    (s.setCtrSel d v).pwr = s.pwr ∧ (s.setCtrSel d v).glb = s.glb ∧ (s.setCtrSel d v).intake = s.intake ∧ (s.setCtrSel
    d v).slc = s.slc ∧ (s.setCtrSel d v).dlv = s.dlv ∧ (s.setCtrSel d v).gates = s.gates ∧ (s.setCtrSel d v).mbx =
    s.mbx ∧ (s.setCtrSel d v).tenant = s.tenant ∧ (s.setCtrSel d v).fw = s.fw ∧ (s.setCtrSel d v).twin = s.twin ∧
    (s.setCtrSel d v).link = s.link ∧ (s.setCtrSel d v).relay = s.relay ∧ (s.setCtrSel d v).tly = s.tly ∧ (s.setCtrSel
    d v).log = s.log ∧ (s.setCtrSel d v).tack = s.tack :=
  ⟨rfl, rfl, rfl, rfl, rfl, rfl, rfl, rfl, rfl, rfl, rfl, rfl, rfl, rfl, rfl, rfl, rfl, rfl, rfl⟩

theorem State.pctr_setPctr (s : State) (i : Nat) (v : PCtr) (key : Nat) : (s.setPctr i v).pctr key = if key = i then v
    else s.pctr key := Tbl.get_set _ _ _ _ _
@[simp] theorem State.pctr_setPctr_self (s : State) (i : Nat) (v : PCtr) : (s.setPctr i v).pctr i = v :=
    Tbl.get_set_self _ _ _ _
@[simp] theorem State.setPctr_frame (s : State) (i : Nat) (v : PCtr) : (s.setPctr i v).pending = s.pending ∧
    (s.setPctr i v).out = s.out ∧ (s.setPctr i v).stepNo = s.stepNo ∧ (s.setPctr i v).freeCtr = s.freeCtr ∧ (s.setPctr
    i v).pwr = s.pwr ∧ (s.setPctr i v).glb = s.glb ∧ (s.setPctr i v).intake = s.intake ∧ (s.setPctr i v).slc = s.slc ∧
    (s.setPctr i v).dlv = s.dlv ∧ (s.setPctr i v).gates = s.gates ∧ (s.setPctr i v).mbx = s.mbx ∧ (s.setPctr i
    v).tenant = s.tenant ∧ (s.setPctr i v).fw = s.fw ∧ (s.setPctr i v).twin = s.twin ∧ (s.setPctr i v).link = s.link ∧
    (s.setPctr i v).relay = s.relay ∧ (s.setPctr i v).tly = s.tly ∧ (s.setPctr i v).log = s.log ∧ (s.setPctr i v).tack
    = s.tack :=
  ⟨rfl, rfl, rfl, rfl, rfl, rfl, rfl, rfl, rfl, rfl, rfl, rfl, rfl, rfl, rfl, rfl, rfl, rfl, rfl⟩

theorem State.logEnt_setLogEnt (s : State) (e : Nat) (v : Option LogEnt) (key : Nat) : (s.setLogEnt e v).logEnt key =
    if key = e then v else s.logEnt key := Tbl.get_set _ _ _ _ _
@[simp] theorem State.logEnt_setLogEnt_self (s : State) (e : Nat) (v : Option LogEnt) : (s.setLogEnt e v).logEnt e = v
    := Tbl.get_set_self _ _ _ _
@[simp] theorem State.setLogEnt_frame (s : State) (e : Nat) (v : Option LogEnt) : (s.setLogEnt e v).pending =
    s.pending ∧ (s.setLogEnt e v).out = s.out ∧ (s.setLogEnt e v).stepNo = s.stepNo ∧ (s.setLogEnt e v).freeCtr =
    s.freeCtr ∧ (s.setLogEnt e v).pwr = s.pwr ∧ (s.setLogEnt e v).glb = s.glb ∧ (s.setLogEnt e v).intake = s.intake ∧
    (s.setLogEnt e v).slc = s.slc ∧ (s.setLogEnt e v).dlv = s.dlv ∧ (s.setLogEnt e v).gates = s.gates ∧ (s.setLogEnt e
    v).mbx = s.mbx ∧ (s.setLogEnt e v).tenant = s.tenant ∧ (s.setLogEnt e v).fw = s.fw ∧ (s.setLogEnt e v).twin =
    s.twin ∧ (s.setLogEnt e v).link = s.link ∧ (s.setLogEnt e v).relay = s.relay ∧ (s.setLogEnt e v).tly = s.tly ∧
    (s.setLogEnt e v).ctr = s.ctr ∧ (s.setLogEnt e v).tack = s.tack :=
  ⟨rfl, rfl, rfl, rfl, rfl, rfl, rfl, rfl, rfl, rfl, rfl, rfl, rfl, rfl, rfl, rfl, rfl, rfl, rfl⟩

theorem State.lostOf_setLost (s : State) (c : Nat) (v : BitVec 16) (key : Nat) : (s.setLost c v).lostOf key = if key =
    c then v else s.lostOf key := Tbl.get_set _ _ _ _ _
@[simp] theorem State.lostOf_setLost_self (s : State) (c : Nat) (v : BitVec 16) : (s.setLost c v).lostOf c = v :=
    Tbl.get_set_self _ _ _ _
@[simp] theorem State.setLost_frame (s : State) (c : Nat) (v : BitVec 16) : (s.setLost c v).pending = s.pending ∧
    (s.setLost c v).out = s.out ∧ (s.setLost c v).stepNo = s.stepNo ∧ (s.setLost c v).freeCtr = s.freeCtr ∧ (s.setLost
    c v).pwr = s.pwr ∧ (s.setLost c v).glb = s.glb ∧ (s.setLost c v).intake = s.intake ∧ (s.setLost c v).slc = s.slc ∧
    (s.setLost c v).dlv = s.dlv ∧ (s.setLost c v).gates = s.gates ∧ (s.setLost c v).mbx = s.mbx ∧ (s.setLost c
    v).tenant = s.tenant ∧ (s.setLost c v).fw = s.fw ∧ (s.setLost c v).twin = s.twin ∧ (s.setLost c v).link = s.link ∧
    (s.setLost c v).relay = s.relay ∧ (s.setLost c v).tly = s.tly ∧ (s.setLost c v).ctr = s.ctr ∧ (s.setLost c v).tack
    = s.tack :=
  ⟨rfl, rfl, rfl, rfl, rfl, rfl, rfl, rfl, rfl, rfl, rfl, rfl, rfl, rfl, rfl, rfl, rfl, rfl, rfl⟩

theorem State.logfail_setLogfail (s : State) (n : Nat) (v : Reg64) (key : Nat) : (s.setLogfail n v).logfail key = if
    key = n then v else s.logfail key := Tbl.get_set _ _ _ _ _
@[simp] theorem State.logfail_setLogfail_self (s : State) (n : Nat) (v : Reg64) : (s.setLogfail n v).logfail n = v :=
    Tbl.get_set_self _ _ _ _
@[simp] theorem State.setLogfail_frame (s : State) (n : Nat) (v : Reg64) : (s.setLogfail n v).pending = s.pending ∧
    (s.setLogfail n v).out = s.out ∧ (s.setLogfail n v).stepNo = s.stepNo ∧ (s.setLogfail n v).freeCtr = s.freeCtr ∧
    (s.setLogfail n v).pwr = s.pwr ∧ (s.setLogfail n v).glb = s.glb ∧ (s.setLogfail n v).intake = s.intake ∧
    (s.setLogfail n v).slc = s.slc ∧ (s.setLogfail n v).dlv = s.dlv ∧ (s.setLogfail n v).gates = s.gates ∧
    (s.setLogfail n v).mbx = s.mbx ∧ (s.setLogfail n v).tenant = s.tenant ∧ (s.setLogfail n v).fw = s.fw ∧
    (s.setLogfail n v).twin = s.twin ∧ (s.setLogfail n v).link = s.link ∧ (s.setLogfail n v).relay = s.relay ∧
    (s.setLogfail n v).tly = s.tly ∧ (s.setLogfail n v).ctr = s.ctr ∧ (s.setLogfail n v).tack = s.tack :=
  ⟨rfl, rfl, rfl, rfl, rfl, rfl, rfl, rfl, rfl, rfl, rfl, rfl, rfl, rfl, rfl, rfl, rfl, rfl, rfl⟩

theorem State.viewOf_setView (s : State) (k : Nat) (v : BitVec 2) (key : Nat) : (s.setView k v).viewOf key = if key =
    k then v else s.viewOf key := Tbl.get_set _ _ _ _ _
@[simp] theorem State.viewOf_setView_self (s : State) (k : Nat) (v : BitVec 2) : (s.setView k v).viewOf k = v :=
    Tbl.get_set_self _ _ _ _
@[simp] theorem State.setView_frame (s : State) (k : Nat) (v : BitVec 2) : (s.setView k v).pending = s.pending ∧
    (s.setView k v).out = s.out ∧ (s.setView k v).stepNo = s.stepNo ∧ (s.setView k v).freeCtr = s.freeCtr ∧ (s.setView
    k v).pwr = s.pwr ∧ (s.setView k v).glb = s.glb ∧ (s.setView k v).intake = s.intake ∧ (s.setView k v).slc = s.slc ∧
    (s.setView k v).dlv = s.dlv ∧ (s.setView k v).gates = s.gates ∧ (s.setView k v).mbx = s.mbx ∧ (s.setView k
    v).tenant = s.tenant ∧ (s.setView k v).fw = s.fw ∧ (s.setView k v).link = s.link ∧ (s.setView k v).relay = s.relay
    ∧ (s.setView k v).tly = s.tly ∧ (s.setView k v).ctr = s.ctr ∧ (s.setView k v).log = s.log ∧ (s.setView k v).tack =
    s.tack :=
  ⟨rfl, rfl, rfl, rfl, rfl, rfl, rfl, rfl, rfl, rfl, rfl, rfl, rfl, rfl, rfl, rfl, rfl, rfl, rfl⟩

theorem State.rdOf_setRd (s : State) (tag : Nat) (v : Option Rd) (key : Nat) : (s.setRd tag v).rdOf key = if key = tag
    then v else s.rdOf key := Tbl.get_set _ _ _ _ _
@[simp] theorem State.rdOf_setRd_self (s : State) (tag : Nat) (v : Option Rd) : (s.setRd tag v).rdOf tag = v :=
    Tbl.get_set_self _ _ _ _
@[simp] theorem State.setRd_frame (s : State) (tag : Nat) (v : Option Rd) : (s.setRd tag v).pending = s.pending ∧
    (s.setRd tag v).out = s.out ∧ (s.setRd tag v).stepNo = s.stepNo ∧ (s.setRd tag v).freeCtr = s.freeCtr ∧ (s.setRd
    tag v).pwr = s.pwr ∧ (s.setRd tag v).glb = s.glb ∧ (s.setRd tag v).intake = s.intake ∧ (s.setRd tag v).slc = s.slc
    ∧ (s.setRd tag v).dlv = s.dlv ∧ (s.setRd tag v).gates = s.gates ∧ (s.setRd tag v).mbx = s.mbx ∧ (s.setRd tag
    v).tenant = s.tenant ∧ (s.setRd tag v).fw = s.fw ∧ (s.setRd tag v).link = s.link ∧ (s.setRd tag v).relay = s.relay
    ∧ (s.setRd tag v).tly = s.tly ∧ (s.setRd tag v).ctr = s.ctr ∧ (s.setRd tag v).log = s.log ∧ (s.setRd tag v).tack =
    s.tack :=
  ⟨rfl, rfl, rfl, rfl, rfl, rfl, rfl, rfl, rfl, rfl, rfl, rfl, rfl, rfl, rfl, rfl, rfl, rfl, rfl⟩

theorem State.ckpt_setCkpt (s : State) (t : Nat) (v : Option Ticket) (key : Nat) : (s.setCkpt t v).ckpt key = if key =
    t then v else s.ckpt key := Tbl.get_set _ _ _ _ _
@[simp] theorem State.ckpt_setCkpt_self (s : State) (t : Nat) (v : Option Ticket) : (s.setCkpt t v).ckpt t = v :=
    Tbl.get_set_self _ _ _ _
@[simp] theorem State.setCkpt_frame (s : State) (t : Nat) (v : Option Ticket) : (s.setCkpt t v).pending = s.pending ∧
    (s.setCkpt t v).out = s.out ∧ (s.setCkpt t v).stepNo = s.stepNo ∧ (s.setCkpt t v).freeCtr = s.freeCtr ∧ (s.setCkpt
    t v).pwr = s.pwr ∧ (s.setCkpt t v).glb = s.glb ∧ (s.setCkpt t v).intake = s.intake ∧ (s.setCkpt t v).slc = s.slc ∧
    (s.setCkpt t v).dlv = s.dlv ∧ (s.setCkpt t v).gates = s.gates ∧ (s.setCkpt t v).mbx = s.mbx ∧ (s.setCkpt t
    v).tenant = s.tenant ∧ (s.setCkpt t v).fw = s.fw ∧ (s.setCkpt t v).link = s.link ∧ (s.setCkpt t v).relay = s.relay
    ∧ (s.setCkpt t v).tly = s.tly ∧ (s.setCkpt t v).ctr = s.ctr ∧ (s.setCkpt t v).log = s.log ∧ (s.setCkpt t v).tack =
    s.tack :=
  ⟨rfl, rfl, rfl, rfl, rfl, rfl, rfl, rfl, rfl, rfl, rfl, rfl, rfl, rfl, rfl, rfl, rfl, rfl, rfl⟩

theorem State.recKey_setRecKey (s : State) (t : Nat) (v : Option (BitVec 256)) (key : Nat) : (s.setRecKey t v).recKey
    key = if key = t then v else s.recKey key := Tbl.get_set _ _ _ _ _
@[simp] theorem State.recKey_setRecKey_self (s : State) (t : Nat) (v : Option (BitVec 256)) : (s.setRecKey t v).recKey
    t = v := Tbl.get_set_self _ _ _ _
@[simp] theorem State.setRecKey_frame (s : State) (t : Nat) (v : Option (BitVec 256)) : (s.setRecKey t v).pending =
    s.pending ∧ (s.setRecKey t v).out = s.out ∧ (s.setRecKey t v).stepNo = s.stepNo ∧ (s.setRecKey t v).freeCtr =
    s.freeCtr ∧ (s.setRecKey t v).pwr = s.pwr ∧ (s.setRecKey t v).glb = s.glb ∧ (s.setRecKey t v).intake = s.intake ∧
    (s.setRecKey t v).slc = s.slc ∧ (s.setRecKey t v).dlv = s.dlv ∧ (s.setRecKey t v).gates = s.gates ∧ (s.setRecKey t
    v).mbx = s.mbx ∧ (s.setRecKey t v).tenant = s.tenant ∧ (s.setRecKey t v).twin = s.twin ∧ (s.setRecKey t v).link =
    s.link ∧ (s.setRecKey t v).relay = s.relay ∧ (s.setRecKey t v).tly = s.tly ∧ (s.setRecKey t v).ctr = s.ctr ∧
    (s.setRecKey t v).log = s.log ∧ (s.setRecKey t v).tack = s.tack :=
  ⟨rfl, rfl, rfl, rfl, rfl, rfl, rfl, rfl, rfl, rfl, rfl, rfl, rfl, rfl, rfl, rfl, rfl, rfl, rfl⟩

theorem State.ledKey_setLedKey (s : State) (t : Nat) (v : Option (BitVec 256)) (key : Nat) : (s.setLedKey t v).ledKey
    key = if key = t then v else s.ledKey key := Tbl.get_set _ _ _ _ _
@[simp] theorem State.ledKey_setLedKey_self (s : State) (t : Nat) (v : Option (BitVec 256)) : (s.setLedKey t v).ledKey
    t = v := Tbl.get_set_self _ _ _ _
@[simp] theorem State.setLedKey_frame (s : State) (t : Nat) (v : Option (BitVec 256)) : (s.setLedKey t v).pending =
    s.pending ∧ (s.setLedKey t v).out = s.out ∧ (s.setLedKey t v).stepNo = s.stepNo ∧ (s.setLedKey t v).freeCtr =
    s.freeCtr ∧ (s.setLedKey t v).pwr = s.pwr ∧ (s.setLedKey t v).glb = s.glb ∧ (s.setLedKey t v).intake = s.intake ∧
    (s.setLedKey t v).slc = s.slc ∧ (s.setLedKey t v).dlv = s.dlv ∧ (s.setLedKey t v).gates = s.gates ∧ (s.setLedKey t
    v).mbx = s.mbx ∧ (s.setLedKey t v).tenant = s.tenant ∧ (s.setLedKey t v).twin = s.twin ∧ (s.setLedKey t v).link =
    s.link ∧ (s.setLedKey t v).relay = s.relay ∧ (s.setLedKey t v).tly = s.tly ∧ (s.setLedKey t v).ctr = s.ctr ∧
    (s.setLedKey t v).log = s.log ∧ (s.setLedKey t v).tack = s.tack :=
  ⟨rfl, rfl, rfl, rfl, rfl, rfl, rfl, rfl, rfl, rfl, rfl, rfl, rfl, rfl, rfl, rfl, rfl, rfl, rfl⟩

/-! ### A command begins and drives a port -/

@[simp] theorem State.emit_frame (s : State) (o : Out) : (s.emit o).pending = s.pending ∧ (s.emit o).stepNo = s.stepNo
    ∧ (s.emit o).freeCtr = s.freeCtr ∧ (s.emit o).pwr = s.pwr ∧ (s.emit o).glb = s.glb ∧ (s.emit o).intake = s.intake
    ∧ (s.emit o).slc = s.slc ∧ (s.emit o).dlv = s.dlv ∧ (s.emit o).gates = s.gates ∧ (s.emit o).mbx = s.mbx ∧ (s.emit
    o).tenant = s.tenant ∧ (s.emit o).fw = s.fw ∧ (s.emit o).twin = s.twin ∧ (s.emit o).link = s.link ∧ (s.emit
    o).relay = s.relay ∧ (s.emit o).tly = s.tly ∧ (s.emit o).ctr = s.ctr ∧ (s.emit o).log = s.log ∧ (s.emit o).tack =
    s.tack :=
  ⟨rfl, rfl, rfl, rfl, rfl, rfl, rfl, rfl, rfl, rfl, rfl, rfl, rfl, rfl, rfl, rfl, rfl, rfl, rfl⟩

@[simp] theorem State.emitAll_frame (s : State) (l : List Out) : (s.emitAll l).pending = s.pending ∧ (s.emitAll
    l).stepNo = s.stepNo ∧ (s.emitAll l).freeCtr = s.freeCtr ∧ (s.emitAll l).pwr = s.pwr ∧ (s.emitAll l).glb = s.glb ∧
    (s.emitAll l).intake = s.intake ∧ (s.emitAll l).slc = s.slc ∧ (s.emitAll l).dlv = s.dlv ∧ (s.emitAll l).gates =
    s.gates ∧ (s.emitAll l).mbx = s.mbx ∧ (s.emitAll l).tenant = s.tenant ∧ (s.emitAll l).fw = s.fw ∧ (s.emitAll
    l).twin = s.twin ∧ (s.emitAll l).link = s.link ∧ (s.emitAll l).relay = s.relay ∧ (s.emitAll l).tly = s.tly ∧
    (s.emitAll l).ctr = s.ctr ∧ (s.emitAll l).log = s.log ∧ (s.emitAll l).tack = s.tack :=
  ⟨rfl, rfl, rfl, rfl, rfl, rfl, rfl, rfl, rfl, rfl, rfl, rfl, rfl, rfl, rfl, rfl, rfl, rfl, rfl⟩

@[simp] theorem State.nextFree_frame (s : State) : (s.nextFree).pending = s.pending ∧ (s.nextFree).out = s.out ∧
    (s.nextFree).stepNo = s.stepNo ∧ (s.nextFree).pwr = s.pwr ∧ (s.nextFree).glb = s.glb ∧ (s.nextFree).intake =
    s.intake ∧ (s.nextFree).slc = s.slc ∧ (s.nextFree).dlv = s.dlv ∧ (s.nextFree).gates = s.gates ∧ (s.nextFree).mbx =
    s.mbx ∧ (s.nextFree).tenant = s.tenant ∧ (s.nextFree).fw = s.fw ∧ (s.nextFree).twin = s.twin ∧ (s.nextFree).link =
    s.link ∧ (s.nextFree).relay = s.relay ∧ (s.nextFree).tly = s.tly ∧ (s.nextFree).ctr = s.ctr ∧ (s.nextFree).log =
    s.log ∧ (s.nextFree).tack = s.tack :=
  ⟨rfl, rfl, rfl, rfl, rfl, rfl, rfl, rfl, rfl, rfl, rfl, rfl, rfl, rfl, rfl, rfl, rfl, rfl, rfl⟩

@[simp] theorem State.begin_frame (s : State) : (s.begin_).pending = s.pending ∧ (s.begin_).freeCtr = s.freeCtr ∧
    (s.begin_).pwr = s.pwr ∧ (s.begin_).glb = s.glb ∧ (s.begin_).intake = s.intake ∧ (s.begin_).slc = s.slc ∧
    (s.begin_).dlv = s.dlv ∧ (s.begin_).gates = s.gates ∧ (s.begin_).mbx = s.mbx ∧ (s.begin_).tenant = s.tenant ∧
    (s.begin_).fw = s.fw ∧ (s.begin_).twin = s.twin ∧ (s.begin_).link = s.link ∧ (s.begin_).relay = s.relay ∧
    (s.begin_).tly = s.tly ∧ (s.begin_).ctr = s.ctr ∧ (s.begin_).log = s.log ∧ (s.begin_).tack = s.tack :=
  ⟨rfl, rfl, rfl, rfl, rfl, rfl, rfl, rfl, rfl, rfl, rfl, rfl, rfl, rfl, rfl, rfl, rfl, rfl⟩

/-! ### What a table entry reads depends on its component alone -/

theorem State.heldL_congr (s u : State) (dip : Nat) (h : u.intake = s.intake) : u.heldL dip = s.heldL dip := by rw
    [State.heldL, State.heldL, h]
theorem State.folder_congr (s u : State) (dip : Nat) (h : u.intake = s.intake) : u.folder dip = s.folder dip := by rw
    [State.folder, State.folder, h]
theorem State.queue_congr (s u : State) (k : Nat) (h : u.intake = s.intake) : u.queue k = s.queue k := by rw
    [State.queue, State.queue, h]
theorem State.edge_congr (s u : State) (n : Nat) (h : u.intake = s.intake) : u.edge n = s.edge n := by rw [State.edge,
    State.edge, h]
theorem State.sampler_congr (s u : State) (n : Nat) (h : u.intake = s.intake) : u.sampler n = s.sampler n := by rw
    [State.sampler, State.sampler, h]
theorem State.main_congr (s u : State) (k : Nat) (h : u.slc = s.slc) : u.main k = s.main k := by rw [State.main,
    State.main, h]
theorem State.dyn_congr (s u : State) (k : Nat) (h : u.slc = s.slc) : u.dyn k = s.dyn k := by rw [State.dyn,
    State.dyn, h]
theorem State.slot_congr (s u : State) (k : Nat) (h : u.slc = s.slc) : u.slot k = s.slot k := by rw [State.slot,
    State.slot, h]
theorem State.shadow_congr (s u : State) (k : Nat) (h : u.slc = s.slc) : u.shadow k = s.shadow k := by rw
    [State.shadow, State.shadow, h]
theorem State.owner_congr (s u : State) (g : Nat) (h : u.slc = s.slc) : u.owner g = s.owner g := by rw [State.owner,
    State.owner, h]
theorem State.ringV_congr (s u : State) (r : Nat) (h : u.dlv = s.dlv) : u.ringV r = s.ringV r := by rw [State.ringV,
    State.ringV, h]
theorem State.mcastV_congr (s u : State) (k : Nat) (h : u.dlv = s.dlv) : u.mcastV k = s.mcastV k := by rw
    [State.mcastV, State.mcastV, h]
theorem State.remoteV_congr (s u : State) (k : Nat) (h : u.dlv = s.dlv) : u.remoteV k = s.remoteV k := by rw
    [State.remoteV, State.remoteV, h]
theorem State.half_congr (s u : State) (r : Nat) (h : u.dlv = s.dlv) : u.half r = s.half r := by rw [State.half,
    State.half, h]
theorem State.group_congr (s u : State) (g : Nat) (h : u.dlv = s.dlv) : u.group g = s.group g := by rw [State.group,
    State.group, h]
theorem State.grun_congr (s u : State) (g : Nat) (h : u.dlv = s.dlv) : u.grun g = s.grun g := by rw [State.grun,
    State.grun, h]
theorem State.selQ_congr (s u : State) (l : Nat) (h : u.dlv = s.dlv) : u.selQ l = s.selQ l := by rw [State.selQ,
    State.selQ, h]
theorem State.lq_congr (s u : State) (l : Nat) (h : u.dlv = s.dlv) : u.lq l = s.lq l := by rw [State.lq, State.lq, h]
theorem State.paceQ_congr (s u : State) (l : Nat) (h : u.dlv = s.dlv) : u.paceQ l = s.paceQ l := by rw [State.paceQ,
    State.paceQ, h]
theorem State.mc_congr (s u : State) (k : Nat) (h : u.dlv = s.dlv) : u.mc k = s.mc k := by rw [State.mc, State.mc, h]
theorem State.grants_congr (s u : State) (c : Nat) (h : u.dlv = s.dlv) : u.grants c = s.grants c := by rw
    [State.grants, State.grants, h]
theorem State.grantCount_congr (s u : State) (c : Nat) (h : u.dlv = s.dlv) : u.grantCount c = s.grantCount c := by rw
    [State.grantCount, State.grantCount, h]
theorem State.outst_congr (s u : State) (c t : Nat) (h : u.dlv = s.dlv) : u.outst c t = s.outst c t := by rw
    [State.outst, State.outst, h]
theorem State.bucket_congr (s u : State) (r : Nat) (h : u.dlv = s.dlv) : u.bucket r = s.bucket r := by rw
    [State.bucket, State.bucket, h]
theorem State.noteQ_congr (s u : State) (c : Nat) (h : u.dlv = s.dlv) : u.noteQ c = s.noteQ c := by rw [State.noteQ,
    State.noteQ, h]
theorem State.starved_congr (s u : State) (c : Nat) (h : u.dlv = s.dlv) : u.starved c = s.starved c := by rw
    [State.starved, State.starved, h]
theorem State.region_congr (s u : State) (k : Nat) (h : u.gates = s.gates) : u.region k = s.region k := by rw
    [State.region, State.region, h]
theorem State.stagedRegion_congr (s u : State) (k : Nat) (h : u.gates = s.gates) : u.stagedRegion k = s.stagedRegion k
    := by rw [State.stagedRegion, State.stagedRegion, h]
theorem State.violLast_congr (s u : State) (t : Nat) (h : u.gates = s.gates) : u.violLast t = s.violLast t := by rw
    [State.violLast, State.violLast, h]
theorem State.tenantR_congr (s u : State) (t : Nat) (h : u.tenant = s.tenant) : u.tenantR t = s.tenantR t := by rw
    [State.tenantR, State.tenantR, h]
theorem State.mailbox_congr (s u : State) (k : Nat) (h : u.mbx = s.mbx) : u.mailbox k = s.mailbox k := by rw
    [State.mailbox, State.mailbox, h]
theorem State.linkAt_congr (s u : State) (k : Nat) (h : u.link = s.link) : u.linkAt k = s.linkAt k := by rw
    [State.linkAt, State.linkAt, h]
theorem State.tackAt_congr (s u : State) (n : Nat) (h : u.tack = s.tack) : u.tackAt n = s.tackAt n := by rw
    [State.tackAt, State.tackAt, h]
theorem State.tallyAt_congr (s u : State) (t : Nat) (h : u.tly = s.tly) : u.tallyAt t = s.tallyAt t := by rw
    [State.tallyAt, State.tallyAt, h]
theorem State.ledgerAt_congr (s u : State) (t : Nat) (h : u.tly = s.tly) : u.ledgerAt t = s.ledgerAt t := by rw
    [State.ledgerAt, State.ledgerAt, h]
theorem State.weight_congr (s u : State) (j : Nat) (h : u.tly = s.tly) : u.weight j = s.weight j := by rw
    [State.weight, State.weight, h]
theorem State.weightNow_congr (s u : State) (j : Nat) (h : u.tly = s.tly) : u.weightNow j = s.weightNow j := by rw
    [State.weightNow, State.weightNow, h]
theorem State.cnt_congr (s u : State) (off : Nat) (h : u.ctr = s.ctr) : u.cnt off = s.cnt off := by rw [State.cnt,
    State.cnt, h]
theorem State.ctrSel_congr (s u : State) (d : Nat) (h : u.ctr = s.ctr) : u.ctrSel d = s.ctrSel d := by rw
    [State.ctrSel, State.ctrSel, h]
theorem State.pctr_congr (s u : State) (i : Nat) (h : u.ctr = s.ctr) : u.pctr i = s.pctr i := by rw [State.pctr,
    State.pctr, h]
theorem State.logEnt_congr (s u : State) (e : Nat) (h : u.log = s.log) : u.logEnt e = s.logEnt e := by rw
    [State.logEnt, State.logEnt, h]
theorem State.lostOf_congr (s u : State) (c : Nat) (h : u.log = s.log) : u.lostOf c = s.lostOf c := by rw
    [State.lostOf, State.lostOf, h]
theorem State.logfail_congr (s u : State) (n : Nat) (h : u.log = s.log) : u.logfail n = s.logfail n := by rw
    [State.logfail, State.logfail, h]
theorem State.viewOf_congr (s u : State) (k : Nat) (h : u.twin = s.twin) : u.viewOf k = s.viewOf k := by rw
    [State.viewOf, State.viewOf, h]
theorem State.rdOf_congr (s u : State) (tag : Nat) (h : u.twin = s.twin) : u.rdOf tag = s.rdOf tag := by rw
    [State.rdOf, State.rdOf, h]
theorem State.ckpt_congr (s u : State) (t : Nat) (h : u.twin = s.twin) : u.ckpt t = s.ckpt t := by rw [State.ckpt,
    State.ckpt, h]
theorem State.recKey_congr (s u : State) (t : Nat) (h : u.fw = s.fw) : u.recKey t = s.recKey t := by rw [State.recKey,
    State.recKey, h]
theorem State.ledKey_congr (s u : State) (t : Nat) (h : u.fw = s.fw) : u.ledKey t = s.ledKey t := by rw [State.ledKey,
    State.ledKey, h]
/-! ### The state in which a command begins reads as the state before it -/

@[simp] theorem State.heldL_begin (s : State) (dip : Nat) : s.begin_.heldL dip = s.heldL dip := rfl
@[simp] theorem State.folder_begin (s : State) (dip : Nat) : s.begin_.folder dip = s.folder dip := rfl
@[simp] theorem State.queue_begin (s : State) (k : Nat) : s.begin_.queue k = s.queue k := rfl
@[simp] theorem State.edge_begin (s : State) (n : Nat) : s.begin_.edge n = s.edge n := rfl
@[simp] theorem State.sampler_begin (s : State) (n : Nat) : s.begin_.sampler n = s.sampler n := rfl
@[simp] theorem State.main_begin (s : State) (k : Nat) : s.begin_.main k = s.main k := rfl
@[simp] theorem State.dyn_begin (s : State) (k : Nat) : s.begin_.dyn k = s.dyn k := rfl
@[simp] theorem State.slot_begin (s : State) (k : Nat) : s.begin_.slot k = s.slot k := rfl
@[simp] theorem State.shadow_begin (s : State) (k : Nat) : s.begin_.shadow k = s.shadow k := rfl
@[simp] theorem State.owner_begin (s : State) (g : Nat) : s.begin_.owner g = s.owner g := rfl
@[simp] theorem State.ringV_begin (s : State) (r : Nat) : s.begin_.ringV r = s.ringV r := rfl
@[simp] theorem State.mcastV_begin (s : State) (k : Nat) : s.begin_.mcastV k = s.mcastV k := rfl
@[simp] theorem State.remoteV_begin (s : State) (k : Nat) : s.begin_.remoteV k = s.remoteV k := rfl
@[simp] theorem State.half_begin (s : State) (r : Nat) : s.begin_.half r = s.half r := rfl
@[simp] theorem State.group_begin (s : State) (g : Nat) : s.begin_.group g = s.group g := rfl
@[simp] theorem State.grun_begin (s : State) (g : Nat) : s.begin_.grun g = s.grun g := rfl
@[simp] theorem State.selQ_begin (s : State) (l : Nat) : s.begin_.selQ l = s.selQ l := rfl
@[simp] theorem State.lq_begin (s : State) (l : Nat) : s.begin_.lq l = s.lq l := rfl
@[simp] theorem State.paceQ_begin (s : State) (l : Nat) : s.begin_.paceQ l = s.paceQ l := rfl
@[simp] theorem State.mc_begin (s : State) (k : Nat) : s.begin_.mc k = s.mc k := rfl
@[simp] theorem State.grants_begin (s : State) (c : Nat) : s.begin_.grants c = s.grants c := rfl
@[simp] theorem State.grantCount_begin (s : State) (c : Nat) : s.begin_.grantCount c = s.grantCount c := rfl
@[simp] theorem State.outst_begin (s : State) (c t : Nat) : s.begin_.outst c t = s.outst c t := rfl
@[simp] theorem State.bucket_begin (s : State) (r : Nat) : s.begin_.bucket r = s.bucket r := rfl
@[simp] theorem State.noteQ_begin (s : State) (c : Nat) : s.begin_.noteQ c = s.noteQ c := rfl
@[simp] theorem State.starved_begin (s : State) (c : Nat) : s.begin_.starved c = s.starved c := rfl
@[simp] theorem State.region_begin (s : State) (k : Nat) : s.begin_.region k = s.region k := rfl
@[simp] theorem State.stagedRegion_begin (s : State) (k : Nat) : s.begin_.stagedRegion k = s.stagedRegion k := rfl
@[simp] theorem State.violLast_begin (s : State) (t : Nat) : s.begin_.violLast t = s.violLast t := rfl
@[simp] theorem State.tenantR_begin (s : State) (t : Nat) : s.begin_.tenantR t = s.tenantR t := rfl
@[simp] theorem State.mailbox_begin (s : State) (k : Nat) : s.begin_.mailbox k = s.mailbox k := rfl
@[simp] theorem State.linkAt_begin (s : State) (k : Nat) : s.begin_.linkAt k = s.linkAt k := rfl
@[simp] theorem State.tackAt_begin (s : State) (n : Nat) : s.begin_.tackAt n = s.tackAt n := rfl
@[simp] theorem State.tallyAt_begin (s : State) (t : Nat) : s.begin_.tallyAt t = s.tallyAt t := rfl
@[simp] theorem State.ledgerAt_begin (s : State) (t : Nat) : s.begin_.ledgerAt t = s.ledgerAt t := rfl
@[simp] theorem State.weight_begin (s : State) (j : Nat) : s.begin_.weight j = s.weight j := rfl
@[simp] theorem State.weightNow_begin (s : State) (j : Nat) : s.begin_.weightNow j = s.weightNow j := rfl
@[simp] theorem State.cnt_begin (s : State) (off : Nat) : s.begin_.cnt off = s.cnt off := rfl
@[simp] theorem State.ctrSel_begin (s : State) (d : Nat) : s.begin_.ctrSel d = s.ctrSel d := rfl
@[simp] theorem State.pctr_begin (s : State) (i : Nat) : s.begin_.pctr i = s.pctr i := rfl
@[simp] theorem State.logEnt_begin (s : State) (e : Nat) : s.begin_.logEnt e = s.logEnt e := rfl
@[simp] theorem State.lostOf_begin (s : State) (c : Nat) : s.begin_.lostOf c = s.lostOf c := rfl
@[simp] theorem State.logfail_begin (s : State) (n : Nat) : s.begin_.logfail n = s.logfail n := rfl
@[simp] theorem State.viewOf_begin (s : State) (k : Nat) : s.begin_.viewOf k = s.viewOf k := rfl
@[simp] theorem State.rdOf_begin (s : State) (tag : Nat) : s.begin_.rdOf tag = s.rdOf tag := rfl
@[simp] theorem State.ckpt_begin (s : State) (t : Nat) : s.begin_.ckpt t = s.ckpt t := rfl
@[simp] theorem State.recKey_begin (s : State) (t : Nat) : s.begin_.recKey t = s.recKey t := rfl
@[simp] theorem State.ledKey_begin (s : State) (t : Nat) : s.begin_.ledKey t = s.ledKey t := rfl

end Sys2Proof.Machine
end

