-- ==== Sys2Proof/Laws/Frame.lean ====
section
/-! SUPPORT. Frames. For each shared operation f a lemma blank_f says what f may write: blank cs (f s) = blank cs s whenever
cs holds the components named in the lemma. Chains of operations rewrite by these lemmas; their bodies need no unfolding. -/

namespace Sys2Proof.Safety

open Sys2Proof.Machine

/-- `cs` holds every component but the queue and the Tacks: no shared operation writes those two. -/
def Wide (cs : List Comp) : Prop := ∀ c, c ≠ .pending → c ≠ .tack → c ∈ cs

@[simp] theorem Wide.mem {cs : List Comp} (h : Wide cs) {c : Comp} (h1 : c ≠ .pending) (h2 : c ≠ .tack) : c ∈ cs := h c h1 h2

variable {cs : List Comp}

@[simp] theorem blank_ite (p : Prop) [Decidable p] (a b : State) :
    blank cs (if p then a else b) = if p then blank cs a else blank cs b := by split <;> rfl

@[simp] theorem blank_cond (p : Bool) (a b : State) :
    blank cs (bif p then a else b) = bif p then blank cs a else blank cs b := by cases p <;> rfl

/-- A loop whose body leaves the components outside `cs` leaves them. -/
@[simp] theorem blank_foldl {α : Type} {g : State → α → State} (hg : ∀ s a, blank cs (g s a) = blank cs s) (l : List α) (s : State) :
    blank cs (l.foldl g s) = blank cs s := by
  induction l generalizing s with
  | nil => rfl
  | cons a r ih => rw [List.foldl_cons, ih, hg]

/-- The same with the loop's order turned. -/
@[simp] theorem blank_foldr {α : Type} {g : α → State → State} (hg : ∀ a s, blank cs (g a s) = blank cs s) (l : List α) (s : State) :
    blank cs (l.foldr g s) = blank cs s := by
  induction l with
  | nil => rfl
  | cons a r ih => rw [List.foldr_cons, hg, ih]

/-- What blanking keeps: pending. -/
theorem Only.pending {s t : State} (h : Only cs s t) (hc : Comp.pending ∉ cs) : t.pending = s.pending := by
  have := congrArg State.pending h
  simpa only [blank, hc, if_false] using this

/-- What blanking keeps: out. -/
theorem Only.out {s t : State} (h : Only cs s t) (hc : Comp.out ∉ cs) : t.out = s.out := by
  have := congrArg State.out h
  simpa only [blank, hc, if_false] using this

/-- What blanking keeps: stepNo. -/
theorem Only.stepNo {s t : State} (h : Only cs s t) (hc : Comp.stepNo ∉ cs) : t.stepNo = s.stepNo := by
  have := congrArg State.stepNo h
  simpa only [blank, hc, if_false] using this

/-- What blanking keeps: freeCtr. -/
theorem Only.freeCtr {s t : State} (h : Only cs s t) (hc : Comp.freeCtr ∉ cs) : t.freeCtr = s.freeCtr := by
  have := congrArg State.freeCtr h
  simpa only [blank, hc, if_false] using this

/-- What blanking keeps: pwr. -/
theorem Only.pwr {s t : State} (h : Only cs s t) (hc : Comp.pwr ∉ cs) : t.pwr = s.pwr := by
  have := congrArg State.pwr h
  simpa only [blank, hc, if_false] using this

/-- What blanking keeps: glb. -/
theorem Only.glb {s t : State} (h : Only cs s t) (hc : Comp.glb ∉ cs) : t.glb = s.glb := by
  have := congrArg State.glb h
  simpa only [blank, hc, if_false] using this

/-- What blanking keeps: intake. -/
theorem Only.intake {s t : State} (h : Only cs s t) (hc : Comp.intake ∉ cs) : t.intake = s.intake := by
  have := congrArg State.intake h
  simpa only [blank, hc, if_false] using this

/-- What blanking keeps: slc. -/
theorem Only.slc {s t : State} (h : Only cs s t) (hc : Comp.slc ∉ cs) : t.slc = s.slc := by
  have := congrArg State.slc h
  simpa only [blank, hc, if_false] using this

/-- What blanking keeps: dlv. -/
theorem Only.dlv {s t : State} (h : Only cs s t) (hc : Comp.dlv ∉ cs) : t.dlv = s.dlv := by
  have := congrArg State.dlv h
  simpa only [blank, hc, if_false] using this

/-- What blanking keeps: gates. -/
theorem Only.gates {s t : State} (h : Only cs s t) (hc : Comp.gates ∉ cs) : t.gates = s.gates := by
  have := congrArg State.gates h
  simpa only [blank, hc, if_false] using this

/-- What blanking keeps: mbx. -/
theorem Only.mbx {s t : State} (h : Only cs s t) (hc : Comp.mbx ∉ cs) : t.mbx = s.mbx := by
  have := congrArg State.mbx h
  simpa only [blank, hc, if_false] using this

/-- What blanking keeps: tenant. -/
theorem Only.tenant {s t : State} (h : Only cs s t) (hc : Comp.tenant ∉ cs) : t.tenant = s.tenant := by
  have := congrArg State.tenant h
  simpa only [blank, hc, if_false] using this

/-- What blanking keeps: fw. -/
theorem Only.fw {s t : State} (h : Only cs s t) (hc : Comp.fw ∉ cs) : t.fw = s.fw := by
  have := congrArg State.fw h
  simpa only [blank, hc, if_false] using this

/-- What blanking keeps: twin. -/
theorem Only.twin {s t : State} (h : Only cs s t) (hc : Comp.twin ∉ cs) : t.twin = s.twin := by
  have := congrArg State.twin h
  simpa only [blank, hc, if_false] using this

/-- What blanking keeps: link. -/
theorem Only.link {s t : State} (h : Only cs s t) (hc : Comp.link ∉ cs) : t.link = s.link := by
  have := congrArg State.link h
  simpa only [blank, hc, if_false] using this

/-- What blanking keeps: relay. -/
theorem Only.relay {s t : State} (h : Only cs s t) (hc : Comp.relay ∉ cs) : t.relay = s.relay := by
  have := congrArg State.relay h
  simpa only [blank, hc, if_false] using this

/-- What blanking keeps: tly. -/
theorem Only.tly {s t : State} (h : Only cs s t) (hc : Comp.tly ∉ cs) : t.tly = s.tly := by
  have := congrArg State.tly h
  simpa only [blank, hc, if_false] using this

/-- What blanking keeps: ctr. -/
theorem Only.ctr {s t : State} (h : Only cs s t) (hc : Comp.ctr ∉ cs) : t.ctr = s.ctr := by
  have := congrArg State.ctr h
  simpa only [blank, hc, if_false] using this

/-- What blanking keeps: log. -/
theorem Only.log {s t : State} (h : Only cs s t) (hc : Comp.log ∉ cs) : t.log = s.log := by
  have := congrArg State.log h
  simpa only [blank, hc, if_false] using this

/-- What blanking keeps: tack. -/
theorem Only.tack {s t : State} (h : Only cs s t) (hc : Comp.tack ∉ cs) : t.tack = s.tack := by
  have := congrArg State.tack h
  simpa only [blank, hc, if_false] using this

end Sys2Proof.Safety
end

