-- ==== Sys2Proof/Laws/FrameOps.lean ====
section
/-! SUPPORT. Frames of the operations of Machine/Ops.lean (see Frame.lean). -/

namespace Sys2Proof.Machine

open Sys2Proof.Safety

variable {ks : List Comp}

@[simp] theorem blank_upIntake (s : State) (f : Intake → Intake) (h0 : Comp.intake ∈ ks) : blank ks (s.upIntake f) =
    blank ks s := by
  simp [State.upIntake, blank, h0]

@[simp] theorem blank_upSlc (s : State) (f : Slices → Slices) (h0 : Comp.slc ∈ ks) : blank ks (s.upSlc f) = blank ks s
    := by
  simp [State.upSlc, blank, h0]

@[simp] theorem blank_upDlv (s : State) (f : Dlv → Dlv) (h0 : Comp.dlv ∈ ks) : blank ks (s.upDlv f) = blank ks s := by
  simp [State.upDlv, blank, h0]

@[simp] theorem blank_upGates (s : State) (f : Gates → Gates) (h0 : Comp.gates ∈ ks) : blank ks (s.upGates f) = blank
    ks s := by
  simp [State.upGates, blank, h0]

@[simp] theorem blank_upFw (s : State) (f : Fw → Fw) (h0 : Comp.fw ∈ ks) : blank ks (s.upFw f) = blank ks s := by
  simp [State.upFw, blank, h0]

@[simp] theorem blank_upTwin (s : State) (f : Twin → Twin) (h0 : Comp.twin ∈ ks) : blank ks (s.upTwin f) = blank ks s
    := by
  simp [State.upTwin, blank, h0]

@[simp] theorem blank_upRelay (s : State) (f : Relay → Relay) (h0 : Comp.relay ∈ ks) : blank ks (s.upRelay f) = blank
    ks s := by
  simp [State.upRelay, blank, h0]

@[simp] theorem blank_upTly (s : State) (f : Tly → Tly) (h0 : Comp.tly ∈ ks) : blank ks (s.upTly f) = blank ks s := by
  simp [State.upTly, blank, h0]

@[simp] theorem blank_upCtr (s : State) (f : Ctr → Ctr) (h0 : Comp.ctr ∈ ks) : blank ks (s.upCtr f) = blank ks s := by
  simp [State.upCtr, blank, h0]

@[simp] theorem blank_upLog (s : State) (f : Log → Log) (h0 : Comp.log ∈ ks) : blank ks (s.upLog f) = blank ks s := by
  simp [State.upLog, blank, h0]

@[simp] theorem blank_upGlb (s : State) (f : Glb → Glb) (h0 : Comp.glb ∈ ks) : blank ks (s.upGlb f) = blank ks s := by
  simp [State.upGlb, blank, h0]

@[simp] theorem blank_upPwr (s : State) (f : Pwr → Pwr) (h0 : Comp.pwr ∈ ks) : blank ks (s.upPwr f) = blank ks s := by
  simp [State.upPwr, blank, h0]

@[simp] theorem blank_upMbx (s : State) (f : Tbl Mailbox → Tbl Mailbox) (h0 : Comp.mbx ∈ ks) : blank ks (s.upMbx f) =
    blank ks s := by
  simp [State.upMbx, blank, h0]

@[simp] theorem blank_upTenant (s : State) (f : Tbl Tenant → Tbl Tenant) (h0 : Comp.tenant ∈ ks) : blank ks
    (s.upTenant f) = blank ks s := by
  simp [State.upTenant, blank, h0]

@[simp] theorem blank_upLink (s : State) (f : Tbl Link → Tbl Link) (h0 : Comp.link ∈ ks) : blank ks (s.upLink f) =
    blank ks s := by
  simp [State.upLink, blank, h0]

@[simp] theorem blank_upTack (s : State) (f : Tbl Tack → Tbl Tack) (h0 : Comp.tack ∈ ks) : blank ks (s.upTack f) =
    blank ks s := by
  simp [State.upTack, blank, h0]

@[simp] theorem blank_nextFree (s : State) (h0 : Comp.freeCtr ∈ ks) : blank ks (s.nextFree) = blank ks s := by
  simp [State.nextFree, blank, h0]

@[simp] theorem blank_setHeldL (s : State) (dip : Nat) (v : List Held) (h0 : Comp.intake ∈ ks) : blank ks (s.setHeldL
    dip v) = blank ks s := by
  simp [State.setHeldL, *]

@[simp] theorem blank_setFolder (s : State) (dip : Nat) (v : List FoldEnt) (h0 : Comp.intake ∈ ks) : blank ks
    (s.setFolder dip v) = blank ks s := by
  simp [State.setFolder, *]

@[simp] theorem blank_setQueue (s : State) (k : Nat) (v : List Msg) (h0 : Comp.intake ∈ ks) : blank ks (s.setQueue k
    v) = blank ks s := by
  simp [State.setQueue, *]

@[simp] theorem blank_setEdge (s : State) (n : Nat) (v : Nat) (h0 : Comp.intake ∈ ks) : blank ks (s.setEdge n v) =
    blank ks s := by
  simp [State.setEdge, *]

@[simp] theorem blank_setSampler (s : State) (n : Nat) (v : Sampler) (h0 : Comp.intake ∈ ks) : blank ks (s.setSampler
    n v) = blank ks s := by
  simp [State.setSampler, *]

@[simp] theorem blank_setMain (s : State) (k : Nat) (v : SrcEntry) (h0 : Comp.slc ∈ ks) : blank ks (s.setMain k v) =
    blank ks s := by
  simp [State.setMain, *]

@[simp] theorem blank_setDyn (s : State) (k : Nat) (v : SrcDyn) (h0 : Comp.slc ∈ ks) : blank ks (s.setDyn k v) = blank
    ks s := by
  simp [State.setDyn, *]

@[simp] theorem blank_setSlot (s : State) (k : Nat) (v : Option Slot) (h0 : Comp.slc ∈ ks) : blank ks (s.setSlot k v)
    = blank ks s := by
  simp [State.setSlot, *]

@[simp] theorem blank_setShadow (s : State) (k : Nat) (v : Option Shadow) (h0 : Comp.slc ∈ ks) : blank ks (s.setShadow
    k v) = blank ks s := by
  simp [State.setShadow, *]

@[simp] theorem blank_setOwner (s : State) (g : Nat) (v : BitVec 8) (h0 : Comp.slc ∈ ks) : blank ks (s.setOwner g v) =
    blank ks s := by
  simp [State.setOwner, *]

@[simp] theorem blank_setRingV (s : State) (r : Nat) (v : Ver RingEnt) (h0 : Comp.dlv ∈ ks) : blank ks (s.setRingV r
    v) = blank ks s := by
  simp [State.setRingV, *]

@[simp] theorem blank_setMcastV (s : State) (k : Nat) (v : Ver McSet) (h0 : Comp.dlv ∈ ks) : blank ks (s.setMcastV k
    v) = blank ks s := by
  simp [State.setMcastV, *]

@[simp] theorem blank_setRemoteV (s : State) (k : Nat) (v : Ver Reg64) (h0 : Comp.dlv ∈ ks) : blank ks (s.setRemoteV k
    v) = blank ks s := by
  simp [State.setRemoteV, *]

@[simp] theorem blank_setHalf (s : State) (r : Nat) (v : Half) (h0 : Comp.dlv ∈ ks) : blank ks (s.setHalf r v) = blank
    ks s := by
  simp [State.setHalf, *]

@[simp] theorem blank_setGroup (s : State) (g : Nat) (v : Reg64) (h0 : Comp.dlv ∈ ks) : blank ks (s.setGroup g v) =
    blank ks s := by
  simp [State.setGroup, *]

@[simp] theorem blank_setGrun (s : State) (g : Nat) (v : GrpRun) (h0 : Comp.dlv ∈ ks) : blank ks (s.setGrun g v) =
    blank ks s := by
  simp [State.setGrun, *]

@[simp] theorem blank_setSelQ (s : State) (l : Nat) (v : List Req) (h0 : Comp.dlv ∈ ks) : blank ks (s.setSelQ l v) =
    blank ks s := by
  simp [State.setSelQ, *]

@[simp] theorem blank_setLq (s : State) (l : Nat) (v : List Req) (h0 : Comp.dlv ∈ ks) : blank ks (s.setLq l v) = blank
    ks s := by
  simp [State.setLq, *]

@[simp] theorem blank_setPaceQ (s : State) (l : Nat) (v : List Req) (h0 : Comp.dlv ∈ ks) : blank ks (s.setPaceQ l v) =
    blank ks s := by
  simp [State.setPaceQ, *]

@[simp] theorem blank_setMc (s : State) (k : Nat) (v : Option McRun) (h0 : Comp.dlv ∈ ks) : blank ks (s.setMc k v) =
    blank ks s := by
  simp [State.setMc, *]

@[simp] theorem blank_setGrants (s : State) (c : Nat) (v : List Grant) (h0 : Comp.dlv ∈ ks) : blank ks (s.setGrants c
    v) = blank ks s := by
  simp [State.setGrants, *]

@[simp] theorem blank_setGrantCount (s : State) (c : Nat) (v : Nat) (h0 : Comp.dlv ∈ ks) : blank ks (s.setGrantCount c
    v) = blank ks s := by
  simp [State.setGrantCount, *]

@[simp] theorem blank_setOutst (s : State) (c t : Nat) (v : Option Outst) (h0 : Comp.dlv ∈ ks) : blank ks (s.setOutst
    c t v) = blank ks s := by
  simp [State.setOutst, *]

@[simp] theorem blank_setBucket (s : State) (r : Nat) (v : Nat) (h0 : Comp.dlv ∈ ks) : blank ks (s.setBucket r v) =
    blank ks s := by
  simp [State.setBucket, *]

@[simp] theorem blank_setNoteQ (s : State) (c : Nat) (v : List Note) (h0 : Comp.dlv ∈ ks) : blank ks (s.setNoteQ c v)
    = blank ks s := by
  simp [State.setNoteQ, *]

@[simp] theorem blank_setStarved (s : State) (c : Nat) (v : Nat) (h0 : Comp.dlv ∈ ks) : blank ks (s.setStarved c v) =
    blank ks s := by
  simp [State.setStarved, *]

@[simp] theorem blank_setRegion (s : State) (k : Nat) (v : Region) (h0 : Comp.gates ∈ ks) : blank ks (s.setRegion k v)
    = blank ks s := by
  simp [State.setRegion, *]

@[simp] theorem blank_setStagedRegion (s : State) (k : Nat) (v : Option Region) (h0 : Comp.gates ∈ ks) : blank ks
    (s.setStagedRegion k v) = blank ks s := by
  simp [State.setStagedRegion, *]

@[simp] theorem blank_setViolLast (s : State) (t : Nat) (v : BitVec 256) (h0 : Comp.gates ∈ ks) : blank ks
    (s.setViolLast t v) = blank ks s := by
  simp [State.setViolLast, *]

@[simp] theorem blank_setTenantR (s : State) (t : Nat) (v : Tenant) (h0 : Comp.tenant ∈ ks) : blank ks (s.setTenantR t
    v) = blank ks s := by
  simp [State.setTenantR, *]

@[simp] theorem blank_setMailbox (s : State) (k : Nat) (v : Mailbox) (h0 : Comp.mbx ∈ ks) : blank ks (s.setMailbox k
    v) = blank ks s := by
  simp [State.setMailbox, *]

@[simp] theorem blank_setLink (s : State) (k : Nat) (v : Link) (h0 : Comp.link ∈ ks) : blank ks (s.setLink k v) =
    blank ks s := by
  simp [State.setLink, *]

@[simp] theorem blank_setTack (s : State) (n : Nat) (v : Tack) (h0 : Comp.tack ∈ ks) : blank ks (s.setTack n v) =
    blank ks s := by
  simp [State.setTack, *]

@[simp] theorem blank_setTally (s : State) (t : Nat) (v : Tally) (h0 : Comp.tly ∈ ks) : blank ks (s.setTally t v) =
    blank ks s := by
  simp [State.setTally, *]

@[simp] theorem blank_setLedger (s : State) (t : Nat) (v : Ledger) (h0 : Comp.tly ∈ ks) : blank ks (s.setLedger t v) =
    blank ks s := by
  simp [State.setLedger, *]

@[simp] theorem blank_setWeight (s : State) (j : Nat) (v : Reg64) (h0 : Comp.tly ∈ ks) : blank ks (s.setWeight j v) =
    blank ks s := by
  simp [State.setWeight, *]

@[simp] theorem blank_setCnt (s : State) (off : Nat) (v : Count) (h0 : Comp.ctr ∈ ks) : blank ks (s.setCnt off v) =
    blank ks s := by
  simp [State.setCnt, *]

@[simp] theorem blank_setCtrSel (s : State) (d : Nat) (v : Reg64) (h0 : Comp.ctr ∈ ks) : blank ks (s.setCtrSel d v) =
    blank ks s := by
  simp [State.setCtrSel, *]

@[simp] theorem blank_setPctr (s : State) (i : Nat) (v : PCtr) (h0 : Comp.ctr ∈ ks) : blank ks (s.setPctr i v) = blank
    ks s := by
  simp [State.setPctr, *]

@[simp] theorem blank_setLogEnt (s : State) (e : Nat) (v : Option LogEnt) (h0 : Comp.log ∈ ks) : blank ks (s.setLogEnt
    e v) = blank ks s := by
  simp [State.setLogEnt, *]

@[simp] theorem blank_setLost (s : State) (c : Nat) (v : BitVec 16) (h0 : Comp.log ∈ ks) : blank ks (s.setLost c v) =
    blank ks s := by
  simp [State.setLost, *]

@[simp] theorem blank_setLogfail (s : State) (n : Nat) (v : Reg64) (h0 : Comp.log ∈ ks) : blank ks (s.setLogfail n v)
    = blank ks s := by
  simp [State.setLogfail, *]

@[simp] theorem blank_setView (s : State) (k : Nat) (v : BitVec 2) (h0 : Comp.twin ∈ ks) : blank ks (s.setView k v) =
    blank ks s := by
  simp [State.setView, *]

@[simp] theorem blank_setRd (s : State) (tag : Nat) (v : Option Rd) (h0 : Comp.twin ∈ ks) : blank ks (s.setRd tag v) =
    blank ks s := by
  simp [State.setRd, *]

@[simp] theorem blank_setCkpt (s : State) (t : Nat) (v : Option Ticket) (h0 : Comp.twin ∈ ks) : blank ks (s.setCkpt t
    v) = blank ks s := by
  simp [State.setCkpt, *]

@[simp] theorem blank_setRecKey (s : State) (t : Nat) (v : Option (BitVec 256)) (h0 : Comp.fw ∈ ks) : blank ks
    (s.setRecKey t v) = blank ks s := by
  simp [State.setRecKey, *]

@[simp] theorem blank_setLedKey (s : State) (t : Nat) (v : Option (BitVec 256)) (h0 : Comp.fw ∈ ks) : blank ks
    (s.setLedKey t v) = blank ks s := by
  simp [State.setLedKey, *]

@[simp] theorem blank_emit (s : State) (o : Out) (h0 : Comp.out ∈ ks) : blank ks (s.emit o) = blank ks s := by
  simp [State.emit, blank, h0]

@[simp] theorem blank_emitAll (s : State) (l : List Out) (h0 : Comp.out ∈ ks) : blank ks (s.emitAll l) = blank ks s :=
    by
  simp [State.emitAll, blank, h0]

@[simp] theorem blank_begin_ (s : State) (h0 : Comp.out ∈ ks) (h1 : Comp.stepNo ∈ ks) : blank ks (s.begin_) = blank ks
    s := by
  simp [State.begin_, blank, h0, h1]

@[simp] theorem blank_run (f : State → State) (s : State) (h0 : Comp.out ∈ ks) (h1 : Comp.stepNo ∈ ks) (hf : ∀ x0,
    blank ks (f x0) = blank ks x0) : blank ks (State.run f s) = blank ks s := by
  simp [State.run, *]

@[simp] theorem blank_bumpBy (off k : Nat) (s : State) (h0 : Comp.ctr ∈ ks) : blank ks (bumpBy off k s) = blank ks s
    := by
  simp [bumpBy, *]

@[simp] theorem blank_bump (off : Nat) (s : State) (h0 : Comp.ctr ∈ ks) : blank ks (bump off s) = blank ks s := by
  simp [bump, *]

@[simp] theorem blank_perfBy (d code n : Nat) (s : State) (h0 : Comp.ctr ∈ ks) : blank ks (perfBy d code n s) = blank
    ks s := by
  simp [perfBy, *]

@[simp] theorem blank_perf (d code : Nat) (s : State) (h0 : Comp.ctr ∈ ks) : blank ks (perf d code s) = blank ks s :=
    by
  simp [perf, *]

@[simp] theorem blank_perfUnit (d n : Nat) (s : State) (h0 : Comp.ctr ∈ ks) : blank ks (perfUnit d n s) = blank ks s
    := by
  unfold perfUnit
  repeat' first
    | with_reducible rfl
    | (simp [*]; done)
    | split
    | (refine (blank_foldl (fun _ _ => ?_) _ _).trans ?_)
    | dsimp only
    | simp [*]

@[simp] theorem blank_cryTags (n : Nat) (s : State) (h0 : Comp.ctr ∈ ks) : blank ks (cryTags n s) = blank ks s := by
  unfold cryTags
  repeat' first
    | with_reducible rfl
    | (simp [*]; done)
    | split
    | (refine (blank_foldl (fun _ _ => ?_) _ _).trans ?_)
    | dsimp only
    | simp [*]

@[simp] theorem blank_cryKey (s : State) (h0 : Comp.ctr ∈ ks) : blank ks (cryKey s) = blank ks s := by
  unfold cryKey
  repeat' first
    | with_reducible rfl
    | (simp [*]; done)
    | split
    | (refine (blank_foldl (fun _ _ => ?_) _ _).trans ?_)
    | dsimp only
    | simp [*]

end Sys2Proof.Machine
end

