-- ==== Sys2Proof/Laws/FrameFlags.lean ====
section
/-! SUPPORT. Frames of the operations of Machine/Flags.lean (see Frame.lean). -/

namespace Sys2Proof.Machine

open Sys2Proof.Safety

variable {ks : List Comp}

@[simp] theorem blank_setStallFlag (s : State) (f : Flag) (h0 : Comp.glb ∈ ks) : blank ks (setStallFlag s f) = blank
    ks s := by
  simp [setStallFlag, *]

@[simp] theorem blank_setShortFlag (s : State) (f : Flag) (h0 : Comp.dlv ∈ ks) : blank ks (setShortFlag s f) = blank
    ks s := by
  simp [setShortFlag, *]

@[simp] theorem blank_setTakeoverFlag (s : State) (f : Flag) (h0 : Comp.twin ∈ ks) : blank ks (setTakeoverFlag s f) =
    blank ks s := by
  simp [setTakeoverFlag, *]

@[simp] theorem blank_setWrapFlag (s : State) (i : Nat) (f : Flag) (h0 : Comp.ctr ∈ ks) : blank ks (setWrapFlag s i f)
    = blank ks s := by
  simp [setWrapFlag, *]

end Sys2Proof.Machine
end

