-- ==== Sys2Proof/Laws/FrameLogOps.lean ====
section
/-! SUPPORT. Frames of the operations of Machine/LogOps.lean (see Frame.lean). -/

namespace Sys2Proof.Machine

open Sys2Proof.Safety

variable {ks : List Comp}

@[simp] theorem blank_askCopy (e : Nat) (s : State) (h0 : Comp.log ∈ ks) : blank ks (askCopy e s) = blank ks s := by
  unfold askCopy
  repeat' first
    | with_reducible rfl
    | (simp [*]; done)
    | split
    | (refine (blank_foldl (fun _ _ => ?_) _ _).trans ?_)
    | dsimp only
    | simp [*]

@[simp] theorem blank_putEntry (e : Nat) (x : LogEnt) (s : State) (h0 : Comp.log ∈ ks) : blank ks (putEntry e x s) =
    blank ks s := by
  simp [putEntry, *]

@[simp] theorem blank_summarise (s : State) (h0 : Comp.log ∈ ks) : blank ks (summarise s) = blank ks s := by
  unfold summarise
  repeat' first
    | with_reducible rfl
    | (simp [*]; done)
    | split
    | (refine (blank_foldl (fun _ _ => ?_) _ _).trans ?_)
    | dsimp only
    | simp [*]

@[simp] theorem blank_countLost (cls : BitVec 2) (s : State) (h0 : Comp.log ∈ ks) : blank ks (countLost cls s) = blank
    ks s := by
  simp [countLost, *]

@[simp] theorem blank_bypassWrite (x : ErrIn) (s : State) (h0 : Comp.log ∈ ks) : blank ks (bypassWrite x s) = blank ks
    s := by
  simp [bypassWrite, *]

@[simp] theorem blank_lostCopy (t : WTarget) (s : State) (h0 : Comp.log ∈ ks) : blank ks (lostCopy t s) = blank ks s
    := by
  unfold lostCopy
  repeat' first
    | with_reducible rfl
    | (simp [*]; done)
    | split
    | (refine (blank_foldl (fun _ _ => ?_) _ _).trans ?_)
    | dsimp only
    | simp [*]

@[simp] theorem blank_enterNew (x : ErrIn) (copy : Bool) (s0 : State) (h0 : Comp.log ∈ ks) : blank ks (enterNew x copy
    s0) = blank ks s0 := by
  unfold enterNew
  repeat' first
    | with_reducible rfl
    | (simp [*]; done)
    | split
    | (refine (blank_foldl (fun _ _ => ?_) _ _).trans ?_)
    | dsimp only
    | simp [*]

@[simp] theorem blank_mergeInto (e : Nat) (s : State) (h0 : Comp.log ∈ ks) : blank ks (mergeInto e s) = blank ks s :=
    by
  unfold mergeInto
  repeat' first
    | with_reducible rfl
    | (simp [*]; done)
    | split
    | (refine (blank_foldl (fun _ _ => ?_) _ _).trans ?_)
    | dsimp only
    | simp [*]

@[simp] theorem blank_logCE (x : ErrIn) (s : State) (h0 : Comp.log ∈ ks) : blank ks (logCE x s) = blank ks s := by
  unfold logCE
  repeat' first
    | with_reducible rfl
    | (simp [*]; done)
    | split
    | (refine (blank_foldl (fun _ _ => ?_) _ _).trans ?_)
    | dsimp only
    | simp [*]

@[simp] theorem blank_logCEKind (k : ErrKind) (u : ErrUnit) (detail : BitVec 256) (s : State) (h0 : Comp.log ∈ ks) :
    blank ks (logCEKind k u detail s) = blank ks s := by
  simp [logCEKind, *]

@[simp] theorem blank_report (v : Viol) (t : BitVec 8) (s : State) (h0 : Comp.gates ∈ ks) (h1 : Comp.tly ∈ ks) (h2 :
    Comp.ctr ∈ ks) (h3 : Comp.log ∈ ks) : blank ks (report v t s) = blank ks s := by
  simp [report, *]

end Sys2Proof.Machine
end

