-- ==== Sys2Proof/Laws/FrameSrcOps.lean ====
section
/-! SUPPORT. Frames of the operations of Machine/SrcOps.lean (see Frame.lean). -/

namespace Sys2Proof.Machine

open Sys2Proof.Safety

variable {ks : List Comp}

@[simp] theorem blank_powerOn (d : Nat) (s : State) (h0 : Comp.pwr ∈ ks) : blank ks (powerOn d s) = blank ks s := by
  simp [powerOn, *]

@[simp] theorem blank_wake (d : Nat) (s : State) (h0 : Comp.pwr ∈ ks) : blank ks (wake d s) = blank ks s := by
  simp [wake, *]

@[simp] theorem blank_queueMirror (k : Nat) (m : BitVec 2) (s : State) (h0 : Comp.twin ∈ ks) (h1 : Comp.ctr ∈ ks) :
    blank ks (queueMirror k m s) = blank ks s := by
  simp [queueMirror, *]

@[simp] theorem blank_putDyn (k : Nat) (d : SrcDyn) (s : State) (h0 : Comp.slc ∈ ks) (h1 : Comp.twin ∈ ks) (h2 :
    Comp.ctr ∈ ks) : blank ks (putDyn k d s) = blank ks s := by
  simp [putDyn, *]

@[simp] theorem blank_takeSlot (k : Nat) (v : Slot) (s : State) (h0 : Comp.slc ∈ ks) (h1 : Comp.ctr ∈ ks) : blank ks
    (takeSlot k v s).1 = blank ks s := by
  unfold takeSlot
  repeat' first
    | with_reducible rfl
    | (simp [*]; done)
    | split
    | (refine (blank_foldl (fun _ _ => ?_) _ _).trans ?_)
    | dsimp only
    | simp [*]

@[simp] theorem blank_freeSlot (sl : Option Nat) (s : State) (h0 : Comp.slc ∈ ks) : blank ks (freeSlot sl s) = blank
    ks s := by
  unfold freeSlot
  repeat' first
    | with_reducible rfl
    | (simp [*]; done)
    | split
    | (refine (blank_foldl (fun _ _ => ?_) _ _).trans ?_)
    | dsimp only
    | simp [*]

@[simp] theorem blank_freeEv (e : Option Ev) (s : State) (h0 : Comp.slc ∈ ks) : blank ks (freeEv e s) = blank ks s :=
    by
  unfold freeEv
  repeat' first
    | with_reducible rfl
    | (simp [*]; done)
    | split
    | (refine (blank_foldl (fun _ _ => ?_) _ _).trans ?_)
    | dsimp only
    | simp [*]

@[simp] theorem blank_foldSlot (e : Ev) (n : Nat) (cookie : Option (BitVec 28)) (s : State) (h0 : Comp.slc ∈ ks) :
    blank ks (foldSlot e n cookie s) = blank ks s := by
  unfold foldSlot
  repeat' first
    | with_reducible rfl
    | (simp [*]; done)
    | split
    | (refine (blank_foldl (fun _ _ => ?_) _ _).trans ?_)
    | dsimp only
    | simp [*]

@[simp] theorem blank_tallyAccepted (t : BitVec 8) (n : Nat) (s : State) (h0 : Comp.tly ∈ ks) (h1 : Comp.ctr ∈ ks) :
    blank ks (tallyAccepted t n s) = blank ks s := by
  simp [tallyAccepted, *]

@[simp] theorem blank_tallyFolded (t : BitVec 8) (n : Nat) (s : State) (h0 : Comp.tly ∈ ks) (h1 : Comp.ctr ∈ ks) :
    blank ks (tallyFolded t n s) = blank ks s := by
  simp [tallyFolded, *]

@[simp] theorem blank_foldRepend (k : Nat) (s : State) (h0 : Comp.slc ∈ ks) (h1 : Comp.tly ∈ ks) (h2 : Comp.ctr ∈ ks)
    : blank ks (foldRepend k s) = blank ks s := by
  unfold foldRepend
  repeat' first
    | with_reducible rfl
    | (simp [*]; done)
    | split
    | (refine (blank_foldl (fun _ _ => ?_) _ _).trans ?_)
    | dsimp only
    | simp [*]

@[simp] theorem blank_returnSource (k : Nat) (s : State) (h0 : Comp.slc ∈ ks) (h1 : Comp.twin ∈ ks) (h2 : Comp.tly ∈
    ks) (h3 : Comp.ctr ∈ ks) : blank ks (returnSource k s) = blank ks s := by
  unfold returnSource
  repeat' first
    | with_reducible rfl
    | (simp [*]; done)
    | split
    | (refine (blank_foldl (fun _ _ => ?_) _ _).trans ?_)
    | dsimp only
    | simp [*]

@[simp] theorem blank_dropFirst (k : Nat) (withRep : Ev → SState) (without : SState) (s : State) (h0 : Comp.slc ∈ ks)
    : blank ks (dropFirst k withRep without s).2 = blank ks s := by
  unfold dropFirst
  repeat' first
    | with_reducible rfl
    | (simp [*]; done)
    | split
    | (refine (blank_foldl (fun _ _ => ?_) _ _).trans ?_)
    | dsimp only
    | simp [*]

@[simp] theorem blank_settleCancel (k : Nat) (s : State) (h0 : Comp.slc ∈ ks) (h1 : Comp.twin ∈ ks) (h2 : Comp.ctr ∈
    ks) : blank ks (settleCancel k s) = blank ks s := by
  simp [settleCancel, *]

@[simp] theorem blank_launchTransition (k : Nat) (mode : BitVec 2) (mirror : Bool) (s : State) (h0 : Comp.slc ∈ ks)
    (h1 : Comp.twin ∈ ks) (h2 : Comp.ctr ∈ ks) : blank ks (launchTransition k mode mirror s) = blank ks s := by
  unfold launchTransition
  repeat' first
    | with_reducible rfl
    | (simp [*]; done)
    | split
    | (refine (blank_foldl (fun _ _ => ?_) _ _).trans ?_)
    | dsimp only
    | simp [*]

@[simp] theorem blank_sendWithdraw (k : Nat) (p : Purpose) (s : State) (h0 : Comp.slc ∈ ks) (h1 : Comp.ctr ∈ ks) :
    blank ks (sendWithdraw k p s) = blank ks s := by
  unfold sendWithdraw
  repeat' first
    | with_reducible rfl
    | (simp [*]; done)
    | split
    | (refine (blank_foldl (fun _ _ => ?_) _ _).trans ?_)
    | dsimp only
    | simp [*]

@[simp] theorem blank_cancelIssued (k : Nat) (levelLo : Bool) (s : State) (h0 : Comp.slc ∈ ks) (h1 : Comp.ctr ∈ ks) :
    blank ks (cancelIssued k levelLo s) = blank ks s := by
  simp [cancelIssued, *]

@[simp] theorem blank_ownEvent (k : Nat) (dup : Bool) (s : State) (h0 : Comp.slc ∈ ks) (h1 : Comp.ctr ∈ ks) : blank ks
    (ownEvent k dup s).1 = blank ks s := by
  simp [ownEvent, *]

@[simp] theorem blank_complete (k : Nat) (s : State) (h0 : Comp.slc ∈ ks) (h1 : Comp.twin ∈ ks) (h2 : Comp.ctr ∈ ks) :
    blank ks (complete k s) = blank ks s := by
  unfold complete
  repeat' first
    | with_reducible rfl
    | (simp [*]; done)
    | split
    | (refine (blank_foldl (fun _ _ => ?_) _ _).trans ?_)
    | dsimp only
    | simp [*]

@[simp] theorem blank_setMaskAll (k : Nat) (v : Bool) (s : State) (h0 : Comp.slc ∈ ks) : blank ks (setMaskAll k v s) =
    blank ks s := by
  simp [setMaskAll, *]

@[simp] theorem blank_maskOp (k : Nat) (v : Bool) (s : State) (h0 : Comp.slc ∈ ks) (h1 : Comp.ctr ∈ ks) : blank ks
    (maskOp k v s) = blank ks s := by
  simp [maskOp, *]

@[simp] theorem blank_holdOne (g : Nat) (k : Nat) (s : State) (h0 : Comp.slc ∈ ks) (h1 : Comp.ctr ∈ ks) : blank ks
    (holdOne g k s) = blank ks s := by
  unfold holdOne
  repeat' first
    | with_reducible rfl
    | (simp [*]; done)
    | split
    | (refine (blank_foldl (fun _ _ => ?_) _ _).trans ?_)
    | dsimp only
    | simp [*]

@[simp] theorem blank_unholdOne (g : Nat) (k : Nat) (s : State) (h0 : Comp.slc ∈ ks) : blank ks (unholdOne g k s) =
    blank ks s := by
  unfold unholdOne
  repeat' first
    | with_reducible rfl
    | (simp [*]; done)
    | split
    | (refine (blank_foldl (fun _ _ => ?_) _ _).trans ?_)
    | dsimp only
    | simp [*]

@[simp] theorem blank_soakBegin (g : Nat) (s : State) (h0 : Comp.slc ∈ ks) (h1 : Comp.dlv ∈ ks) (h2 : Comp.ctr ∈ ks) :
    blank ks (soakBegin g s) = blank ks s := by
  simp [soakBegin, *]

@[simp] theorem blank_soakFinish (g : Nat) (s : State) (h0 : Comp.slc ∈ ks) (h1 : Comp.dlv ∈ ks) : blank ks
    (soakFinish g s) = blank ks s := by
  simp [soakFinish, *]

@[simp] theorem blank_countLaunch (g : Nat) (s : State) (h0 : Comp.slc ∈ ks) (h1 : Comp.dlv ∈ ks) (h2 : Comp.ctr ∈ ks)
    : blank ks (countLaunch g s) = blank ks s := by
  simp [countLaunch, *]

end Sys2Proof.Machine
end

