-- ==== Sys2Proof/Laws/FrameDlvOps.lean ====
section
/-! SUPPORT. Frames of the operations of Machine/DlvOps.lean (see Frame.lean). -/

namespace Sys2Proof.Machine

open Sys2Proof.Safety

variable {ks : List Comp}

@[simp] theorem blank_noteFull (r : Nat) (s : State) (h0 : Comp.dlv ∈ ks) (h1 : Comp.ctr ∈ ks) : blank ks (noteFull r
    s) = blank ks s := by
  simp [noteFull, *]

@[simp] theorem blank_reserve (r : Nat) (s : State) (h0 : Comp.dlv ∈ ks) (h1 : Comp.ctr ∈ ks) : blank ks (reserve r s)
    = blank ks s := by
  simp [reserve, *]

@[simp] theorem blank_release (r : Nat) (s : State) (h0 : Comp.dlv ∈ ks) (h1 : Comp.ctr ∈ ks) : blank ks (release r s)
    = blank ks s := by
  simp [release, *]

theorem blank_guarToken {r : Nat} {s t : State} (h : guarToken r s = some t) (h0 : Comp.dlv ∈ ks) :
    blank ks t = blank ks s := by
  unfold guarToken at h
  split at h
  · cases h; simp [*]
  · cases h

theorem blank_poolToken {s t : State} (h : poolToken s = some t) (h0 : Comp.dlv ∈ ks) : blank ks t = blank ks s := by
  unfold poolToken at h
  split at h
  · cases h; simp [*]
  · cases h

theorem blank_anyToken {r : Nat} {s t : State} (h : anyToken r s = some t) (h0 : Comp.dlv ∈ ks) :
    blank ks t = blank ks s := by
  unfold anyToken at h
  split at h
  · cases h; rfl
  · split at h
    · next hg => cases h; exact blank_guarToken hg h0
    · exact blank_poolToken h h0

theorem blank_entryToken {l r : Nat} {s t : State} (h : entryToken l r s = some t) (h0 : Comp.dlv ∈ ks) :
    blank ks t = blank ks s := by
  unfold entryToken at h
  split at h
  · exact blank_anyToken h h0
  · exact blank_guarToken h h0

@[simp] theorem blank_present (q : Req) (s : State) (h0 : Comp.dlv ∈ ks) : blank ks (present q s) = blank ks s := by
  unfold present
  repeat' first
    | with_reducible rfl
    | (simp [*]; done)
    | split
    | (refine (blank_foldl (fun _ _ => ?_) _ _).trans ?_)
    | dsimp only
    | simp [*]

@[simp] theorem blank_paceWait (q : Req) (s : State) (h0 : Comp.dlv ∈ ks) (h1 : Comp.ctr ∈ ks) : blank ks (paceWait q
    s) = blank ks s := by
  simp [paceWait, *]

@[simp] theorem blank_presentMember (q : Req) (r : Nat) (s : State) (h0 : Comp.dlv ∈ ks) (h1 : Comp.ctr ∈ ks) : blank
    ks (presentMember q r s) = blank ks s := by
  unfold presentMember
  split
  · next h => simp [*, blank_entryToken h h0]
  · simp [*]

@[simp] theorem blank_removeReqs (p : Req → Bool) (s : State) (h0 : Comp.dlv ∈ ks) : blank ks (removeReqs p s) = blank
    ks s := by
  simp [removeReqs, *]

@[simp] theorem blank_cancelLate (k : Nat) (s : State) (h0 : Comp.ctr ∈ ks) : blank ks (cancelLate k s) = blank ks s
    := by
  simp [cancelLate, *]

@[simp] theorem blank_toQuarantine (k : Nat) (s : State) (h0 : Comp.slc ∈ ks) (h1 : Comp.twin ∈ ks) (h2 : Comp.ctr ∈
    ks) : blank ks (toQuarantine k s) = blank ks s := by
  simp [toQuarantine, *]

@[simp] theorem blank_settleWin (k : Nat) (s : State) (h0 : Comp.slc ∈ ks) (h1 : Comp.twin ∈ ks) (h2 : Comp.tly ∈ ks)
    (h3 : Comp.ctr ∈ ks) : blank ks (settleWin k s) = blank ks s := by
  unfold settleWin
  repeat' first
    | with_reducible rfl
    | (simp [*]; done)
    | split
    | (refine (blank_foldl (fun _ _ => ?_) _ _).trans ?_)
    | dsimp only
    | simp [*]

@[simp] theorem blank_afterLaunch (k : Nat) (mode : BitVec 2) (mirror : Bool) (s : State) (h0 : Comp.slc ∈ ks) (h1 :
    Comp.twin ∈ ks) (h2 : Comp.ctr ∈ ks) : blank ks (afterLaunch k mode mirror s) = blank ks s := by
  unfold afterLaunch
  repeat' first
    | with_reducible rfl
    | (simp [*]; done)
    | split
    | (refine (blank_foldl (fun _ _ => ?_) _ _).trans ?_)
    | dsimp only
    | simp [*]

@[simp] theorem blank_mcFinish (k : Nat) (s : State) (h0 : Comp.slc ∈ ks) (h1 : Comp.dlv ∈ ks) (h2 : Comp.twin ∈ ks)
    (h3 : Comp.ctr ∈ ks) : blank ks (mcFinish k s) = blank ks s := by
  unfold mcFinish
  repeat' first
    | with_reducible rfl
    | (simp [*]; done)
    | split
    | (refine (blank_foldl (fun _ _ => ?_) _ _).trans ?_)
    | dsimp only
    | simp [*]

@[simp] theorem blank_countSkips (n : Nat) (s : State) (h0 : Comp.ctr ∈ ks) : blank ks (countSkips n s) = blank ks s
    := by
  simp [countSkips, *]

@[simp] theorem blank_residueAdd (k m : Nat) (s : State) (h0 : Comp.dlv ∈ ks) : blank ks (residueAdd k m s) = blank ks
    s := by
  unfold residueAdd
  repeat' first
    | with_reducible rfl
    | (simp [*]; done)
    | split
    | (refine (blank_foldl (fun _ _ => ?_) _ _).trans ?_)
    | dsimp only
    | simp [*]

@[simp] theorem blank_presentResidue (k r m : Nat) (s : State) (h0 : Comp.dlv ∈ ks) (h1 : Comp.ctr ∈ ks) : blank ks
    (presentResidue k r m s) = blank ks s := by
  unfold presentResidue
  repeat' first
    | with_reducible rfl
    | (simp [*]; done)
    | split
    | (refine (blank_foldl (fun _ _ => ?_) _ _).trans ?_)
    | dsimp only
    | simp [*]

@[simp] theorem blank_presentResidues (r : Nat) (s : State) (h0 : Comp.dlv ∈ ks) (h1 : Comp.ctr ∈ ks) : blank ks
    (presentResidues r s) = blank ks s := by
  unfold presentResidues
  repeat' first
    | with_reducible rfl
    | (simp [*]; done)
    | split
    | (refine (blank_foldl (fun _ _ => ?_) _ _).trans ?_)
    | dsimp only
    | simp [*]

@[simp] theorem blank_presentAll (s : State) (h0 : Comp.dlv ∈ ks) (h1 : Comp.ctr ∈ ks) : blank ks (presentAll s) =
    blank ks s := by
  unfold presentAll
  repeat' first
    | with_reducible rfl
    | (simp [*]; done)
    | split
    | (refine (blank_foldl (fun _ _ => ?_) _ _).trans ?_)
    | dsimp only
    | simp [*]

@[simp] theorem blank_releaseRoom (r : Nat) (s : State) (h0 : Comp.dlv ∈ ks) (h1 : Comp.ctr ∈ ks) : blank ks
    (releaseRoom r s) = blank ks s := by
  simp [releaseRoom, *]

@[simp] theorem blank_skipResidues (r : Nat) (s : State) (h0 : Comp.slc ∈ ks) (h1 : Comp.dlv ∈ ks) (h2 : Comp.twin ∈
    ks) (h3 : Comp.ctr ∈ ks) : blank ks (skipResidues r s) = blank ks s := by
  unfold skipResidues
  repeat' first
    | with_reducible rfl
    | (simp [*]; done)
    | split
    | (refine (blank_foldl (fun _ _ => ?_) _ _).trans ?_)
    | dsimp only
    | simp [*]

@[simp] theorem blank_skipMember (k : Nat) (s : State) (h0 : Comp.slc ∈ ks) (h1 : Comp.dlv ∈ ks) (h2 : Comp.twin ∈ ks)
    (h3 : Comp.ctr ∈ ks) : blank ks (skipMember k s) = blank ks s := by
  simp [skipMember, *]

@[simp] theorem blank_setFence (id : Nat) (u : Fence → Fence) (s : State) (h0 : Comp.intake ∈ ks) : blank ks (setFence
    id u s) = blank ks s := by
  unfold setFence
  repeat' first
    | with_reducible rfl
    | (simp [*]; done)
    | split
    | (refine (blank_foldl (fun _ _ => ?_) _ _).trans ?_)
    | dsimp only
    | simp [*]

@[simp] theorem blank_fenceBack (id : Nat) (s : State) (h0 : Comp.intake ∈ ks) : blank ks (fenceBack id s) = blank ks
    s := by
  simp [fenceBack, *]

@[simp] theorem blank_backOut (q : Req) (s : State) (h0 : Comp.intake ∈ ks) (h1 : Comp.slc ∈ ks) (h2 : Comp.dlv ∈ ks)
    (h3 : Comp.twin ∈ ks) (h4 : Comp.relay ∈ ks) (h5 : Comp.tly ∈ ks) (h6 : Comp.ctr ∈ ks) : blank ks (backOut q s) =
    blank ks s := by
  unfold backOut
  repeat' first
    | with_reducible rfl
    | (simp [*]; done)
    | split
    | (refine (blank_foldl (fun _ _ => ?_) _ _).trans ?_)
    | dsimp only
    | simp [*]

@[simp] theorem blank_returnReq (q : Req) (s : State) (h0 : Comp.intake ∈ ks) (h1 : Comp.slc ∈ ks) (h2 : Comp.dlv ∈
    ks) (h3 : Comp.twin ∈ ks) (h4 : Comp.relay ∈ ks) (h5 : Comp.tly ∈ ks) (h6 : Comp.ctr ∈ ks) : blank ks (returnReq q
    s) = blank ks s := by
  unfold returnReq
  repeat' first
    | with_reducible rfl
    | (simp [*]; done)
    | split
    | (refine (blank_foldl (fun _ _ => ?_) _ _).trans ?_)
    | dsimp only
    | simp [*]

@[simp] theorem blank_deadSlot (s : State) (h0 : Comp.ctr ∈ ks) : blank ks (deadSlot s) = blank ks s := by
  simp [deadSlot, *]

@[simp] theorem blank_staleWrites (r : Nat) (s : State) (h0 : Comp.dlv ∈ ks) : blank ks (staleWrites r s) = blank ks s
    := by
  simp [staleWrites, *]

@[simp] theorem blank_faultHalf (r : Nat) (s : State) (h0 : Comp.slc ∈ ks) (h1 : Comp.dlv ∈ ks) (h2 : Comp.twin ∈ ks)
    (h3 : Comp.ctr ∈ ks) : blank ks (faultHalf r s) = blank ks s := by
  simp [faultHalf, *]

@[simp] theorem blank_quiesceHalf (r : Nat) (s : State) (h0 : Comp.intake ∈ ks) (h1 : Comp.slc ∈ ks) (h2 : Comp.dlv ∈
    ks) (h3 : Comp.twin ∈ ks) (h4 : Comp.relay ∈ ks) (h5 : Comp.tly ∈ ks) (h6 : Comp.ctr ∈ ks) : blank ks (quiesceHalf
    r s) = blank ks s := by
  unfold quiesceHalf
  repeat' first
    | with_reducible rfl
    | (simp [*]; done)
    | split
    | (refine (blank_foldl (fun _ _ => ?_) _ _).trans ?_)
    | dsimp only
    | simp [*]

@[simp] theorem blank_restartHalf (r : Nat) (s : State) (h0 : Comp.intake ∈ ks) (h1 : Comp.slc ∈ ks) (h2 : Comp.dlv ∈
    ks) (h3 : Comp.twin ∈ ks) (h4 : Comp.relay ∈ ks) (h5 : Comp.tly ∈ ks) (h6 : Comp.ctr ∈ ks) : blank ks (restartHalf
    r s) = blank ks s := by
  simp [restartHalf, *]

@[simp] theorem blank_putWrite (c : Nat) (cls : BitVec 3) (tgt : WTarget) (addr : BitVec 64) (len : Nat) (ord ns :
    Bool) (alloc : BitVec 2) (colour : BitVec 8) (data : BitVec 512) (tag : BitVec 12) (s : State) (h0 : Comp.out ∈
    ks) (h1 : Comp.freeCtr ∈ ks) (h2 : Comp.dlv ∈ ks) (h3 : Comp.ctr ∈ ks) : blank ks (putWrite c cls tgt addr len ord
    ns alloc colour data tag s) = blank ks s := by
  simp [putWrite, *]

@[simp] theorem blank_pushOwn (cls : BitVec 3) (tgt : WTarget) (addr : BitVec 64) (data : BitVec 512) (ten : BitVec 8)
    (s : State) (h0 : Comp.dlv ∈ ks) : blank ks (pushOwn cls tgt addr data ten s) = blank ks s := by
  simp [pushOwn, *]

@[simp] theorem blank_pushCopy (c : CopyItem) (tgt : WTarget) (addr : BitVec 64) (data : BitVec 512) (s : State) (h0 :
    Comp.dlv ∈ ks) : blank ks (pushCopy c tgt addr data s) = blank ks s := by
  unfold pushCopy
  repeat' first
    | with_reducible rfl
    | (simp [*]; done)
    | split
    | (refine (blank_foldl (fun _ _ => ?_) _ _).trans ?_)
    | dsimp only
    | simp [*]

@[simp] theorem blank_takeBackCopies (s : State) (h0 : Comp.dlv ∈ ks) (h1 : Comp.log ∈ ks) : blank ks (takeBackCopies
    s) = blank ks s := by
  unfold takeBackCopies
  repeat' first
    | with_reducible rfl
    | (simp [*]; done)
    | split
    | (refine (blank_foldl (fun _ _ => ?_) _ _).trans ?_)
    | dsimp only
    | simp [*]

@[simp] theorem blank_tallyNotify (t : BitVec 8) (s : State) (h0 : Comp.tly ∈ ks) (h1 : Comp.ctr ∈ ks) : blank ks
    (tallyNotify t s) = blank ks s := by
  simp [tallyNotify, *]

@[simp] theorem blank_launchNote (n : Note) (tag : BitVec 12) (s : State) (h0 : Comp.out ∈ ks) (h1 : Comp.freeCtr ∈
    ks) (h2 : Comp.slc ∈ ks) (h3 : Comp.dlv ∈ ks) (h4 : Comp.gates ∈ ks) (h5 : Comp.twin ∈ ks) (h6 : Comp.tly ∈ ks)
    (h7 : Comp.ctr ∈ ks) (h8 : Comp.log ∈ ks) : blank ks (launchNote n tag s) = blank ks s := by
  unfold launchNote
  repeat' first
    | with_reducible rfl
    | (simp [*]; done)
    | split
    | (refine (blank_foldl (fun _ _ => ?_) _ _).trans ?_)
    | dsimp only
    | simp [*]

@[simp] theorem blank_sendNote (n : Note) (s : State) (h0 : Comp.out ∈ ks) (h1 : Comp.freeCtr ∈ ks) (h2 : Comp.slc ∈
    ks) (h3 : Comp.dlv ∈ ks) (h4 : Comp.gates ∈ ks) (h5 : Comp.twin ∈ ks) (h6 : Comp.tly ∈ ks) (h7 : Comp.ctr ∈ ks)
    (h8 : Comp.log ∈ ks) : blank ks (sendNote n s) = blank ks s := by
  unfold sendNote
  repeat' first
    | with_reducible rfl
    | (simp [*]; done)
    | split
    | (refine (blank_foldl (fun _ _ => ?_) _ _).trans ?_)
    | dsimp only
    | simp [*]

@[simp] theorem blank_notify (r : Nat) (l : BitVec 4) (ent : RingEnt) (s : State) (h0 : Comp.out ∈ ks) (h1 :
    Comp.freeCtr ∈ ks) (h2 : Comp.slc ∈ ks) (h3 : Comp.dlv ∈ ks) (h4 : Comp.gates ∈ ks) (h5 : Comp.twin ∈ ks) (h6 :
    Comp.tly ∈ ks) (h7 : Comp.ctr ∈ ks) (h8 : Comp.log ∈ ks) : blank ks (notify r l ent s) = blank ks s := by
  simp [notify, *]

@[simp] theorem blank_drainNotes (c : Nat) (fuel : Nat) (s : State) (h0 : Comp.out ∈ ks) (h1 : Comp.freeCtr ∈ ks) (h2
    : Comp.slc ∈ ks) (h3 : Comp.dlv ∈ ks) (h4 : Comp.gates ∈ ks) (h5 : Comp.twin ∈ ks) (h6 : Comp.tly ∈ ks) (h7 :
    Comp.ctr ∈ ks) (h8 : Comp.log ∈ ks) : blank ks (drainNotes c fuel s) = blank ks s := by
  induction fuel generalizing s with
  | zero => rfl
  | succ n ih =>
    unfold drainNotes
    repeat' first
      | with_reducible rfl
      | (simp [*]; done)
      | split
      | dsimp only
      | simp [*]

@[simp] theorem blank_drainNote (c : Nat) (s : State) (h0 : Comp.out ∈ ks) (h1 : Comp.freeCtr ∈ ks) (h2 : Comp.slc ∈
    ks) (h3 : Comp.dlv ∈ ks) (h4 : Comp.gates ∈ ks) (h5 : Comp.twin ∈ ks) (h6 : Comp.tly ∈ ks) (h7 : Comp.ctr ∈ ks)
    (h8 : Comp.log ∈ ks) : blank ks (drainNote c s) = blank ks s := by
  unfold drainNote
  repeat' first
    | with_reducible rfl
    | (simp [*]; done)
    | split
    | (refine (blank_foldl (fun _ _ => ?_) _ _).trans ?_)
    | dsimp only
    | simp [*]

@[simp] theorem blank_notifyAtLaunch (r : Nat) (l last : BitVec 4) (ent : RingEnt) (s : State) (h0 : Comp.out ∈ ks)
    (h1 : Comp.freeCtr ∈ ks) (h2 : Comp.slc ∈ ks) (h3 : Comp.dlv ∈ ks) (h4 : Comp.gates ∈ ks) (h5 : Comp.twin ∈ ks)
    (h6 : Comp.tly ∈ ks) (h7 : Comp.ctr ∈ ks) (h8 : Comp.log ∈ ks) : blank ks (notifyAtLaunch r l last ent s) = blank
    ks s := by
  unfold notifyAtLaunch
  repeat' first
    | with_reducible rfl
    | (simp [*]; done)
    | split
    | (refine (blank_foldl (fun _ _ => ?_) _ _).trans ?_)
    | dsimp only
    | simp [*]

@[simp] theorem blank_fenceDone (id : Nat) (s : State) (h0 : Comp.intake ∈ ks) : blank ks (fenceDone id s) = blank ks
    s := by
  simp [fenceDone, *]

@[simp] theorem blank_fencePush (f : Fence) (d : Dest) (s : State) (h0 : Comp.intake ∈ ks) (h1 : Comp.dlv ∈ ks) :
    blank ks (fencePush f d s) = blank ks s := by
  simp [fencePush, *]

@[simp] theorem blank_fenceRequest (f : Fence) (s : State) (h0 : Comp.intake ∈ ks) (h1 : Comp.dlv ∈ ks) (h2 : Comp.ctr
    ∈ ks) : blank ks (fenceRequest f s) = blank ks s := by
  unfold fenceRequest
  repeat' first
    | with_reducible rfl
    | (simp [*]; done)
    | split
    | (refine (blank_foldl (fun _ _ => ?_) _ _).trans ?_)
    | dsimp only
    | simp [*]

@[simp] theorem blank_fenceRequests (s : State) (h0 : Comp.intake ∈ ks) (h1 : Comp.dlv ∈ ks) (h2 : Comp.ctr ∈ ks) :
    blank ks (fenceRequests s) = blank ks s := by
  simp [fenceRequests, *]

end Sys2Proof.Machine
end

