-- ==== Sys2Proof/Laws/FrameErrors.lean ====
section
/-! SUPPORT. Frames of the operations of Machine/Errors.lean (see Frame.lean). -/

namespace Sys2Proof.Machine

open Sys2Proof.Safety

variable {ks : List Comp}

@[simp] theorem blank_faultErrRing (s : State) (h0 : Comp.dlv ∈ ks) (h1 : Comp.log ∈ ks) : blank ks (faultErrRing s) =
    blank ks s := by
  simp [faultErrRing, *]

@[simp] theorem blank_copyNow (x : LogEnt) (e : Nat) (bypass : Bool) (tgt : WTarget) (s : State) (h0 : Comp.out ∈ ks)
    (h1 : Comp.freeCtr ∈ ks) (h2 : Comp.dlv ∈ ks) (h3 : Comp.gates ∈ ks) (h4 : Comp.tly ∈ ks) (h5 : Comp.ctr ∈ ks) (h6
    : Comp.log ∈ ks) : blank ks (copyNow x e bypass tgt s) = blank ks s := by
  unfold copyNow
  repeat' first
    | with_reducible rfl
    | (simp [*]; done)
    | split
    | (refine (blank_foldl (fun _ _ => ?_) _ _).trans ?_)
    | dsimp only
    | simp [*]

@[simp] theorem blank_dropResidue (k : Nat) (s : State) (h0 : Comp.slc ∈ ks) (h1 : Comp.dlv ∈ ks) (h2 : Comp.twin ∈
    ks) (h3 : Comp.ctr ∈ ks) : blank ks (dropResidue k s) = blank ks s := by
  unfold dropResidue
  repeat' first
    | with_reducible rfl
    | (simp [*]; done)
    | split
    | (refine (blank_foldl (fun _ _ => ?_) _ _).trans ?_)
    | dsimp only
    | simp [*]

@[simp] theorem blank_quarantineSource (k : Nat) (s : State) (h0 : Comp.slc ∈ ks) (h1 : Comp.dlv ∈ ks) (h2 : Comp.twin
    ∈ ks) (h3 : Comp.ctr ∈ ks) : blank ks (quarantineSource k s) = blank ks s := by
  simp [quarantineSource, *]

@[simp] theorem blank_quarantineHalf (r : Nat) (s : State) (h0 : Comp.slc ∈ ks) (h1 : Comp.dlv ∈ ks) (h2 : Comp.twin ∈
    ks) (h3 : Comp.ctr ∈ ks) : blank ks (quarantineHalf r s) = blank ks s := by
  simp [quarantineHalf, *]

@[simp] theorem blank_slotless (i : Nat) (s : State) (h0 : Comp.slc ∈ ks) : blank ks (slotless i s) = blank ks s := by
  simp [slotless, *]

@[simp] theorem blank_freeBadSlot (i : Nat) (s : State) (h0 : Comp.slc ∈ ks) : blank ks (freeBadSlot i s) = blank ks s
    := by
  unfold freeBadSlot
  repeat' first
    | with_reducible rfl
    | (simp [*]; done)
    | split
    | (refine (blank_foldl (fun _ _ => ?_) _ _).trans ?_)
    | dsimp only
    | simp [*]

@[simp] theorem blank_holdTally (t : Nat) (s : State) (h0 : Comp.tly ∈ ks) : blank ks (holdTally t s) = blank ks s :=
    by
  simp [holdTally, *]

@[simp] theorem blank_quarantineEntry (v : BitVec 28) (s : State) (h0 : Comp.slc ∈ ks) (h1 : Comp.dlv ∈ ks) : blank ks
    (quarantineEntry v s) = blank ks s := by
  unfold quarantineEntry
  repeat' first
    | with_reducible rfl
    | (simp [*]; done)
    | split
    | (refine (blank_foldl (fun _ _ => ?_) _ _).trans ?_)
    | dsimp only
    | simp [*]

@[simp] theorem blank_quarantineUnit (u : ErrUnit) (s : State) (h0 : Comp.slc ∈ ks) (h1 : Comp.dlv ∈ ks) (h2 :
    Comp.gates ∈ ks) (h3 : Comp.fw ∈ ks) (h4 : Comp.twin ∈ ks) (h5 : Comp.tly ∈ ks) (h6 : Comp.ctr ∈ ks) : blank ks
    (quarantineUnit u s) = blank ks s := by
  unfold quarantineUnit
  repeat' first
    | with_reducible rfl
    | (simp [*]; done)
    | split
    | (refine (blank_foldl (fun _ _ => ?_) _ _).trans ?_)
    | dsimp only
    | simp [*]

@[simp] theorem blank_fatalStop (x : LogEnt) (bypass : Bool) (s : State) (h0 : Comp.out ∈ ks) (h1 : Comp.freeCtr ∈ ks)
    (h2 : Comp.dlv ∈ ks) (h3 : Comp.gates ∈ ks) (h4 : Comp.tly ∈ ks) (h5 : Comp.ctr ∈ ks) (h6 : Comp.log ∈ ks) : blank
    ks (fatalStop x bypass s) = blank ks s := by
  simp [fatalStop, *]

@[simp] theorem blank_enterFatal (x : ErrIn) (s : State) (h0 : Comp.out ∈ ks) (h1 : Comp.freeCtr ∈ ks) (h2 : Comp.dlv
    ∈ ks) (h3 : Comp.gates ∈ ks) (h4 : Comp.tly ∈ ks) (h5 : Comp.ctr ∈ ks) (h6 : Comp.log ∈ ks) : blank ks (enterFatal
    x s) = blank ks s := by
  unfold enterFatal
  repeat' first
    | with_reducible rfl
    | (simp [*]; done)
    | split
    | (refine (blank_foldl (fun _ _ => ?_) _ _).trans ?_)
    | dsimp only
    | simp [*]

@[simp] theorem blank_fatalBypass (x : ErrIn) (s : State) (h0 : Comp.out ∈ ks) (h1 : Comp.freeCtr ∈ ks) (h2 : Comp.dlv
    ∈ ks) (h3 : Comp.gates ∈ ks) (h4 : Comp.tly ∈ ks) (h5 : Comp.ctr ∈ ks) (h6 : Comp.log ∈ ks) : blank ks
    (fatalBypass x s) = blank ks s := by
  unfold fatalBypass
  repeat' first
    | with_reducible rfl
    | (simp [*]; done)
    | split
    | (refine (blank_foldl (fun _ _ => ?_) _ _).trans ?_)
    | dsimp only
    | simp [*]

@[simp] theorem blank_logBypass (x : ErrIn) (s : State) (hw : Wide ks) : blank ks (logBypass x s) = blank ks s := by
  simp [logBypass, *]

@[simp] theorem blank_logErr (x : ErrIn) (s : State) (hw : Wide ks) : blank ks (logErr x s) = blank ks s := by
  unfold logErr
  repeat' first
    | with_reducible rfl
    | (simp [*]; done)
    | split
    | (refine (blank_foldl (fun _ _ => ?_) _ _).trans ?_)
    | dsimp only
    | simp [*]

@[simp] theorem blank_logKind (k : ErrKind) (u : ErrUnit) (detail : BitVec 256) (s : State) (hw : Wide ks) : blank ks
    (logKind k u detail s) = blank ks s := by
  simp [logKind, *]

@[simp] theorem blank_portParity (port : Nat) (s : State) (hw : Wide ks) : blank ks (portParity port s) = blank ks s
    := by
  simp [portParity, *]

@[simp] theorem blank_logSramFail (e : BitVec 6) (syn : Byte) (s : State) (h0 : Comp.log ∈ ks) : blank ks (logSramFail
    e syn s) = blank ks s := by
  unfold logSramFail
  repeat' first
    | with_reducible rfl
    | (simp [*]; done)
    | split
    | (refine (blank_foldl (fun _ _ => ?_) _ _).trans ?_)
    | dsimp only
    | simp [*]

@[simp] theorem blank_queueUe (s : State) (h0 : Comp.intake ∈ ks) (h1 : Comp.slc ∈ ks) (h2 : Comp.dlv ∈ ks) (h3 :
    Comp.twin ∈ ks) (h4 : Comp.relay ∈ ks) (h5 : Comp.tly ∈ ks) (h6 : Comp.ctr ∈ ks) : blank ks (queueUe s) = blank ks
    s := by
  unfold queueUe
  repeat' first
    | with_reducible rfl
    | (simp [*]; done)
    | split
    | (refine (blank_foldl (fun _ _ => ?_) _ _).trans ?_)
    | dsimp only
    | simp [*]

@[simp] theorem blank_haltFw (s : State) (h0 : Comp.fw ∈ ks) : blank ks (haltFw s) = blank ks s := by
  simp [haltFw, *]

@[simp] theorem blank_dropJournal (key : Nat) (s : State) (h0 : Comp.mbx ∈ ks) : blank ks (dropJournal key s) = blank
    ks s := by
  simp [dropJournal, *]

@[simp] theorem blank_faultLedger (t : Nat) (s : State) (h0 : Comp.tly ∈ ks) : blank ks (faultLedger t s) = blank ks s
    := by
  simp [faultLedger, *]

@[simp] theorem blank_writeErrUnit (u : ErrUnit) (s : State) (h0 : Comp.slc ∈ ks) (h1 : Comp.dlv ∈ ks) (h2 : Comp.twin
    ∈ ks) (h3 : Comp.tly ∈ ks) (h4 : Comp.ctr ∈ ks) (h5 : Comp.log ∈ ks) : blank ks (writeErrUnit u s) = blank ks s :=
    by
  simp [writeErrUnit, *]

@[simp] theorem blank_firstOutcome (k : ErrKind) (u : ErrUnit) (s : State) (hw : Wide ks) : blank ks (firstOutcome k u
    s) = blank ks s := by
  unfold firstOutcome
  repeat' first
    | with_reducible rfl
    | (simp [*]; done)
    | split
    | (refine (blank_foldl (fun _ _ => ?_) _ _).trans ?_)
    | dsimp only
    | simp [*]

@[simp] theorem blank_detect (k : ErrKind) (u : ErrUnit) (detail : BitVec 256) (s : State) (hw : Wide ks) : blank ks
    (detect k u detail s) = blank ks s := by
  simp [detect, *]

end Sys2Proof.Machine
end

