-- ==== Sys2Proof/Laws/FrameApply.lean ====
section
/-! SUPPORT. Frames of the operations of Machine/Apply.lean (see Frame.lean). -/

namespace Sys2Proof.Machine

open Sys2Proof.Safety

variable {ks : List Comp}

@[simp] theorem blank_foldInto (e : Ev) (m : Msg) (s : State) (h0 : Comp.slc ∈ ks) (h1 : Comp.tly ∈ ks) (h2 : Comp.ctr
    ∈ ks) : blank ks (foldInto e m s) = blank ks s := by
  simp [foldInto, *]

@[simp] theorem blank_makeEv (m : Msg) (ent : SrcEntry) (s : State) (h0 : Comp.slc ∈ ks) (h1 : Comp.tly ∈ ks) (h2 :
    Comp.ctr ∈ ks) : blank ks (makeEv m ent s).1 = blank ks s := by
  simp [makeEv, *]

@[simp] theorem blank_perfHeld (k : Nat) (st : SState) (s : State) (h0 : Comp.ctr ∈ ks) : blank ks (perfHeld k st s) =
    blank ks s := by
  simp [perfHeld, *]

@[simp] theorem blank_exemptOne (old new : BitVec 2) (k : Nat) (s : State) (h0 : Comp.slc ∈ ks) (h1 : Comp.ctr ∈ ks) :
    blank ks (exemptOne old new k s) = blank ks s := by
  unfold exemptOne
  repeat' first
    | with_reducible rfl
    | (simp [*]; done)
    | split
    | (refine (blank_foldl (fun _ _ => ?_) _ _).trans ?_)
    | dsimp only
    | simp [*]

@[simp] theorem blank_applyEvent (m : Msg) (ent : SrcEntry) (s : State) (h0 : Comp.slc ∈ ks) (h1 : Comp.twin ∈ ks) (h2
    : Comp.tly ∈ ks) (h3 : Comp.ctr ∈ ks) : blank ks (applyEvent m ent s) = blank ks s := by
  unfold applyEvent
  repeat' first
    | with_reducible rfl
    | (simp [*]; done)
    | split
    | (refine (blank_foldl (fun _ _ => ?_) _ _).trans ?_)
    | dsimp only
    | simp [*]

@[simp] theorem blank_applyRetract (k : Nat) (levelLo : Bool) (s : State) (h0 : Comp.slc ∈ ks) (h1 : Comp.twin ∈ ks)
    (h2 : Comp.ctr ∈ ks) : blank ks (applyRetract k levelLo s) = blank ks s := by
  unfold applyRetract
  repeat' first
    | with_reducible rfl
    | (simp [*]; done)
    | split
    | (refine (blank_foldl (fun _ _ => ?_) _ _).trans ?_)
    | dsimp only
    | simp [*]

@[simp] theorem blank_fenceApplied (m : Msg) (s : State) (h0 : Comp.intake ∈ ks) : blank ks (fenceApplied m s) = blank
    ks s := by
  unfold fenceApplied
  repeat' first
    | with_reducible rfl
    | (simp [*]; done)
    | split
    | (refine (blank_foldl (fun _ _ => ?_) _ _).trans ?_)
    | dsimp only
    | simp [*]

@[simp] theorem blank_fenceDropped (m : Msg) (s : State) (h0 : Comp.intake ∈ ks) : blank ks (fenceDropped m s) = blank
    ks s := by
  unfold fenceDropped
  repeat' first
    | with_reducible rfl
    | (simp [*]; done)
    | split
    | (refine (blank_foldl (fun _ _ => ?_) _ _).trans ?_)
    | dsimp only
    | simp [*]

@[simp] theorem blank_refuse (m : Msg) (kind : Byte) (s : State) (h0 : Comp.intake ∈ ks) (h1 : Comp.gates ∈ ks) (h2 :
    Comp.tly ∈ ks) (h3 : Comp.ctr ∈ ks) (h4 : Comp.log ∈ ks) : blank ks (refuse m kind s) = blank ks s := by
  simp [refuse, *]

@[simp] theorem blank_bindPort (m : Msg) (ent : SrcEntry) (s : State) (h0 : Comp.slc ∈ ks) (h1 : Comp.ctr ∈ ks) :
    blank ks (bindPort m ent s) = blank ks s := by
  unfold bindPort
  repeat' first
    | with_reducible rfl
    | (simp [*]; done)
    | split
    | (refine (blank_foldl (fun _ _ => ?_) _ _).trans ?_)
    | dsimp only
    | simp [*]

@[simp] theorem blank_applyKind (m : Msg) (ent : SrcEntry) (s : State) (h0 : Comp.intake ∈ ks) (h1 : Comp.slc ∈ ks)
    (h2 : Comp.twin ∈ ks) (h3 : Comp.tly ∈ ks) (h4 : Comp.ctr ∈ ks) : blank ks (applyKind m ent s) = blank ks s := by
  simp [applyKind, *]

@[simp] theorem blank_bankApply (m : Msg) (s : State) (h0 : Comp.intake ∈ ks) (h1 : Comp.slc ∈ ks) (h2 : Comp.gates ∈
    ks) (h3 : Comp.twin ∈ ks) (h4 : Comp.tly ∈ ks) (h5 : Comp.ctr ∈ ks) (h6 : Comp.log ∈ ks) : blank ks (bankApply m
    s) = blank ks s := by
  simp [bankApply, *]

@[simp] theorem blank_applyMsg (m : Msg) (s : State) (h0 : Comp.intake ∈ ks) (h1 : Comp.slc ∈ ks) (h2 : Comp.gates ∈
    ks) (h3 : Comp.twin ∈ ks) (h4 : Comp.tly ∈ ks) (h5 : Comp.ctr ∈ ks) (h6 : Comp.log ∈ ks) : blank ks (applyMsg m s)
    = blank ks s := by
  unfold applyMsg
  repeat' first
    | with_reducible rfl
    | (simp [*]; done)
    | split
    | (refine (blank_foldl (fun _ _ => ?_) _ _).trans ?_)
    | dsimp only
    | simp [*]

@[simp] theorem blank_enqueue (o : Nat) (m : Msg) (s : State) (h0 : Comp.pwr ∈ ks) (h1 : Comp.intake ∈ ks) : blank ks
    (enqueue o m s) = blank ks s := by
  simp [enqueue, *]

@[simp] theorem blank_passMarkers (q : Nat) (s : State) (h0 : Comp.intake ∈ ks) (h1 : Comp.mbx ∈ ks) : blank ks
    (passMarkers q s) = blank ks s := by
  simp [passMarkers, *]

@[simp] theorem blank_forwardMsg (m : Msg) (s : State) (h0 : Comp.link ∈ ks) (h1 : Comp.ctr ∈ ks) : blank ks
    (forwardMsg m s) = blank ks s := by
  simp [forwardMsg, *]

@[simp] theorem blank_sendMsg (dip : Nat) (m : Msg) (s : State) (h0 : Comp.pwr ∈ ks) (h1 : Comp.intake ∈ ks) (h2 :
    Comp.link ∈ ks) (h3 : Comp.ctr ∈ ks) : blank ks (sendMsg dip m s) = blank ks s := by
  simp [sendMsg, *]

@[simp] theorem blank_sendAcc (dip : Nat) (e : FoldEnt) (s : State) (h0 : Comp.pwr ∈ ks) (h1 : Comp.intake ∈ ks) (h2 :
    Comp.link ∈ ks) (h3 : Comp.ctr ∈ ks) : blank ks (sendAcc dip e s) = blank ks s := by
  simp [sendAcc, *]

@[simp] theorem blank_evict (dip : Nat) (l : List FoldEnt) (s : State) (h0 : Comp.pwr ∈ ks) (h1 : Comp.intake ∈ ks)
    (h2 : Comp.link ∈ ks) (h3 : Comp.ctr ∈ ks) : blank ks (evict dip l s).2 = blank ks s := by
  unfold evict
  repeat' first
    | with_reducible rfl
    | (simp [*]; done)
    | split
    | (refine (blank_foldl (fun _ _ => ?_) _ _).trans ?_)
    | dsimp only
    | simp [*]

@[simp] theorem blank_folderTake (dip : Nat) (m : Msg) (s : State) (h0 : Comp.pwr ∈ ks) (h1 : Comp.intake ∈ ks) (h2 :
    Comp.link ∈ ks) (h3 : Comp.ctr ∈ ks) : blank ks (folderTake dip m s) = blank ks s := by
  unfold folderTake
  repeat' first
    | with_reducible rfl
    | (simp [*]; done)
    | split
    | (refine (blank_foldl (fun _ _ => ?_) _ _).trans ?_)
    | dsimp only
    | simp [*]

@[simp] theorem blank_flushFolder (dip : Nat) (s : State) (h0 : Comp.pwr ∈ ks) (h1 : Comp.intake ∈ ks) (h2 : Comp.link
    ∈ ks) (h3 : Comp.ctr ∈ ks) : blank ks (flushFolder dip s) = blank ks s := by
  simp [flushFolder, *]

@[simp] theorem blank_flushAll (s : State) (h0 : Comp.pwr ∈ ks) (h1 : Comp.intake ∈ ks) (h2 : Comp.link ∈ ks) (h3 :
    Comp.ctr ∈ ks) : blank ks (flushAll s) = blank ks s := by
  simp [flushAll, *]

@[simp] theorem blank_fenceIntake (m : Msg) (s : State) (h0 : Comp.pwr ∈ ks) (h1 : Comp.intake ∈ ks) (h2 : Comp.link ∈
    ks) (h3 : Comp.ctr ∈ ks) : blank ks (fenceIntake m s) = blank ks s := by
  simp [fenceIntake, *]

@[simp] theorem blank_admitMsg (dip : Nat) (m : Msg) (s : State) (h0 : Comp.pwr ∈ ks) (h1 : Comp.intake ∈ ks) (h2 :
    Comp.link ∈ ks) (h3 : Comp.ctr ∈ ks) : blank ks (admitMsg dip m s) = blank ks s := by
  simp [admitMsg, *]

@[simp] theorem blank_takeMsg (dip : Nat) (m : BitVec 128) (s : State) (h0 : Comp.pwr ∈ ks) (h1 : Comp.intake ∈ ks)
    (h2 : Comp.gates ∈ ks) (h3 : Comp.link ∈ ks) (h4 : Comp.tly ∈ ks) (h5 : Comp.ctr ∈ ks) (h6 : Comp.log ∈ ks) :
    blank ks (takeMsg dip m s) = blank ks s := by
  unfold takeMsg
  repeat' first
    | with_reducible rfl
    | (simp [*]; done)
    | split
    | (refine (blank_foldl (fun _ _ => ?_) _ _).trans ?_)
    | dsimp only
    | simp [*]

@[simp] theorem blank_takeHandshake (dip : Nat) (mv : BitVec 4) (d : BitVec 512) (s : State) (hw : Wide ks) : blank ks
    (takeHandshake dip mv d s) = blank ks s := by
  unfold takeHandshake
  repeat' first
    | with_reducible rfl
    | (simp [*]; done)
    | split
    | (refine (blank_foldl (fun _ _ => ?_) _ _).trans ?_)
    | dsimp only
    | simp [*]

@[simp] theorem blank_serveDip (dip : Nat) (fuel : Nat) (s : State) (hw : Wide ks) : blank ks (serveDip dip fuel s) =
    blank ks s := by
  induction fuel generalizing s with
  | zero => rfl
  | succ n ih =>
    unfold serveDip
    repeat' first
      | with_reducible rfl
      | (simp [*]; done)
      | split
      | dsimp only
      | simp [*]

@[simp] theorem blank_serveDips (s : State) (hw : Wide ks) : blank ks (serveDips s) = blank ks s := by
  simp [serveDips, *]

end Sys2Proof.Machine
end

