-- ==== Sys2Proof/Laws/FrameTlyOps.lean ====
section
/-! SUPPORT. Frames of the operations of Machine/TlyOps.lean (see Frame.lean). -/

namespace Sys2Proof.Machine

open Sys2Proof.Safety

variable {ks : List Comp}

@[simp] theorem blank_tallyDelivered (t : BitVec 8) (l : BitVec 4) (s : State) (h0 : Comp.tly ∈ ks) (h1 : Comp.ctr ∈
    ks) : blank ks (tallyDelivered t l s) = blank ks s := by
  simp [tallyDelivered, *]

@[simp] theorem blank_countTags (t : Nat) (s : State) (h0 : Comp.ctr ∈ ks) : blank ks (countTags t s) = blank ks s :=
    by
  simp [countTags, *]

@[simp] theorem blank_ledgerPut (l : Nat) (w : Ticket) (s : State) (h0 : Comp.dlv ∈ ks) (h1 : Comp.tly ∈ ks) : blank
    ks (ledgerPut l w s) = blank ks s := by
  simp [ledgerPut, *]

@[simp] theorem blank_tallyClear (t : Nat) (s : State) (h0 : Comp.tly ∈ ks) : blank ks (tallyClear t s) = blank ks s
    := by
  simp [tallyClear, *]

@[simp] theorem blank_drainFinal (fuel : Nat) (s : State) (h0 : Comp.dlv ∈ ks) (h1 : Comp.tly ∈ ks) : blank ks
    (drainFinal fuel s) = blank ks s := by
  induction fuel generalizing s with
  | zero => rfl
  | succ n ih =>
    unfold drainFinal
    repeat' first
      | with_reducible rfl
      | (simp [*]; done)
      | split
      | dsimp only
      | simp [*]

@[simp] theorem blank_drainFinals (s : State) (h0 : Comp.dlv ∈ ks) (h1 : Comp.tly ∈ ks) : blank ks (drainFinals s) =
    blank ks s := by
  simp [drainFinals, *]

end Sys2Proof.Machine
end

