-- ==== Sys2Proof/Laws/FrameMbxOps.lean ====
section
/-! SUPPORT. Frames of the operations of Machine/MbxOps.lean (see Frame.lean). -/

namespace Sys2Proof.Machine

open Sys2Proof.Safety

variable {ks : List Comp}

@[simp] theorem blank_completionEvent (m : Mbx) (seq : BitVec 16) (s : State) (h0 : Comp.pwr ∈ ks) (h1 : Comp.intake ∈
    ks) (h2 : Comp.ctr ∈ ks) : blank ks (completionEvent m seq s) = blank ks s := by
  simp [completionEvent, *]

@[simp] theorem blank_respondN (m : Mbx) (status : Byte) (res : List DW) (bytes : Nat) (replay : Bool) (s : State) (h0
    : Comp.pwr ∈ ks) (h1 : Comp.intake ∈ ks) (h2 : Comp.mbx ∈ ks) (h3 : Comp.ctr ∈ ks) : blank ks (respondN m status
    res bytes replay s) = blank ks s := by
  simp [respondN, *]

@[simp] theorem blank_respond (m : Mbx) (status : Byte) (res : List DW) (replay : Bool) (s : State) (h0 : Comp.pwr ∈
    ks) (h1 : Comp.intake ∈ ks) (h2 : Comp.mbx ∈ ks) (h3 : Comp.ctr ∈ ks) : blank ks (respond m status res replay s) =
    blank ks s := by
  simp [respond, *]

@[simp] theorem blank_answer (m : Mbx) (status : Byte) (res : List DW) (s : State) (h0 : Comp.freeCtr ∈ ks) (h1 :
    Comp.pwr ∈ ks) (h2 : Comp.intake ∈ ks) (h3 : Comp.mbx ∈ ks) (h4 : Comp.ctr ∈ ks) : blank ks (answer m status res
    s) = blank ks s := by
  unfold answer
  repeat' first
    | with_reducible rfl
    | (simp [*]; done)
    | split
    | (refine (blank_foldl (fun _ _ => ?_) _ _).trans ?_)
    | dsimp only
    | simp [*]

@[simp] theorem blank_answerBare (m : Mbx) (status : Byte) (s : State) (h0 : Comp.pwr ∈ ks) (h1 : Comp.intake ∈ ks)
    (h2 : Comp.mbx ∈ ks) (h3 : Comp.ctr ∈ ks) : blank ks (answerBare m status s) = blank ks s := by
  simp [answerBare, *]

@[simp] theorem blank_waitOn (m : Mbx) (b : Busy) (s : State) (h0 : Comp.mbx ∈ ks) : blank ks (waitOn m b s) = blank
    ks s := by
  simp [waitOn, *]

@[simp] theorem blank_runCmd (m : Mbx) (op n : Nat) (f : Cmd → State → State) (s : State) (h0 : Comp.freeCtr ∈ ks) (h1
    : Comp.pwr ∈ ks) (h2 : Comp.intake ∈ ks) (h3 : Comp.mbx ∈ ks) (h4 : Comp.ctr ∈ ks) (hf : ∀ x0 x1, blank ks (f x0
    x1) = blank ks x1) : blank ks (runCmd m op n f s) = blank ks s := by
  unfold runCmd
  repeat' first
    | with_reducible rfl
    | (simp [*]; done)
    | split
    | (refine (blank_foldl (fun _ _ => ?_) _ _).trans ?_)
    | dsimp only
    | simp [*]

@[simp] theorem blank_restartOthers (m : Nat) (s : State) (h0 : Comp.pwr ∈ ks) (h1 : Comp.intake ∈ ks) (h2 : Comp.mbx
    ∈ ks) (h3 : Comp.ctr ∈ ks) : blank ks (restartOthers m s) = blank ks s := by
  simp [restartOthers, *]

@[simp] theorem blank_restartAll (s : State) (h0 : Comp.pwr ∈ ks) (h1 : Comp.intake ∈ ks) (h2 : Comp.mbx ∈ ks) (h3 :
    Comp.ctr ∈ ks) : blank ks (restartAll s) = blank ks s := by
  simp [restartAll, *]

end Sys2Proof.Machine
end

