-- ==== Sys2Proof/Laws/FrameLaunch.lean ====
section
/-! SUPPORT. Frames of the operations of Machine/Launch.lean (see Frame.lean). -/

namespace Sys2Proof.Machine

open Sys2Proof.Safety

variable {ks : List Comp}

@[simp] theorem blank_selectOne (k i : Nat) (e : Ev) (s : State) (h0 : Comp.slc ∈ ks) (h1 : Comp.dlv ∈ ks) (h2 :
    Comp.ctr ∈ ks) : blank ks (selectOne k i e s) = blank ks s := by
  simp [selectOne, *]

@[simp] theorem blank_selectUp (slice : Nat) (fuel : Nat) (fuel' : Nat) (s : State) (h0 : Comp.slc ∈ ks) (h1 :
    Comp.dlv ∈ ks) (h2 : Comp.ctr ∈ ks) : blank ks (selectUp slice fuel fuel' s) = blank ks s := by
  induction fuel generalizing s fuel' with
  | zero => rfl
  | succ n ih =>
    unfold selectUp
    repeat' first
      | with_reducible rfl
      | (simp [*]; done)
      | split
      | dsimp only
      | simp [*]

@[simp] theorem blank_memberIn (q : Req) (k m : Nat) (r : BitVec 15) (s : State) (h0 : Comp.dlv ∈ ks) (h1 : Comp.ctr ∈
    ks) : blank ks (memberIn q k m r s) = blank ks s := by
  simp [memberIn, *]

@[simp] theorem blank_expand (q : Req) (k set : Nat) (s : State) (h0 : Comp.intake ∈ ks) (h1 : Comp.slc ∈ ks) (h2 :
    Comp.dlv ∈ ks) (h3 : Comp.twin ∈ ks) (h4 : Comp.relay ∈ ks) (h5 : Comp.tly ∈ ks) (h6 : Comp.ctr ∈ ks) : blank ks
    (expand q k set s) = blank ks s := by
  simp [expand, *]

@[simp] theorem blank_enterHalf (q : Req) (r : Nat) (s : State) (h0 : Comp.dlv ∈ ks) (h1 : Comp.ctr ∈ ks) : blank ks
    (enterHalf q r s) = blank ks s := by
  simp [enterHalf, *]

@[simp] theorem blank_enterReq (q : Req) (s : State) (h0 : Comp.intake ∈ ks) (h1 : Comp.slc ∈ ks) (h2 : Comp.dlv ∈ ks)
    (h3 : Comp.twin ∈ ks) (h4 : Comp.relay ∈ ks) (h5 : Comp.tly ∈ ks) (h6 : Comp.ctr ∈ ks) : blank ks (enterReq q s) =
    blank ks s := by
  unfold enterReq
  repeat' first
    | with_reducible rfl
    | (simp [*]; done)
    | (exact blank_entryToken (by assumption) (by assumption))
    | split
    | (refine (blank_foldl (fun _ _ => ?_) _ _).trans ?_)
    | dsimp only
    | simp [*]

@[simp] theorem blank_leavePace (q : Req) (r : Nat) (s : State) (h0 : Comp.dlv ∈ ks) (h1 : Comp.ctr ∈ ks) : blank ks
    (leavePace q r s) = blank ks s := by
  simp [leavePace, *]

theorem blank_findPaced {s t : State} {q : Req} {r : Nat} {l1 l2 l3 : List Req}
    (h : findPaced s l1 l2 = some (q, r, l3, t)) (h0 : Comp.dlv ∈ ks) : blank ks t = blank ks s := by
  induction l2 generalizing l1 with
  | nil => cases h
  | cons p after ih =>
    simp only [findPaced] at h
    split at h
    · exact ih h
    · split at h
      · next ha => cases h; exact blank_anyToken ha h0
      · exact ih h

@[simp] theorem blank_takeCand (c : Cand) (s : State) (h0 : Comp.dlv ∈ ks) (h1 : Comp.ctr ∈ ks) : blank ks (takeCand c
    s) = blank ks s := by
  unfold takeCand
  repeat' first
    | with_reducible rfl
    | (simp [*]; done)
    | split
    | (refine (blank_foldl (fun _ _ => ?_) _ _).trans ?_)
    | dsimp only
    | simp [*]

@[simp] theorem blank_parkHead (l : Nat) (s : State) (h0 : Comp.dlv ∈ ks) (h1 : Comp.ctr ∈ ks) : blank ks (parkHead l
    s) = blank ks s := by
  unfold parkHead
  repeat' first
    | with_reducible rfl
    | (simp [*]; done)
    | split
    | (refine (blank_foldl (fun _ _ => ?_) _ _).trans ?_)
    | dsimp only
    | simp [*]

@[simp] theorem blank_freezeEv (k : Nat) (s : State) (h0 : Comp.slc ∈ ks) : blank ks (freezeEv k s) = blank ks s := by
  simp [freezeEv, *]

@[simp] theorem blank_grantReq (q : Req) (s : State) (h0 : Comp.slc ∈ ks) : blank ks (grantReq q s) = blank ks s := by
  unfold grantReq
  repeat' first
    | with_reducible rfl
    | (simp [*]; done)
    | split
    | (refine (blank_foldl (fun _ _ => ?_) _ _).trans ?_)
    | dsimp only
    | simp [*]

@[simp] theorem blank_removeReq (q : Req) (s : State) (h0 : Comp.dlv ∈ ks) : blank ks (removeReq q s) = blank ks s :=
    by
  simp [removeReq, *]

@[simp] theorem blank_joinUp (r : Nat) (ep : BitVec 16) (fuel : Nat) (l : List Req) (s : State) (h0 : Comp.slc ∈ ks)
    (h1 : Comp.dlv ∈ ks) (h2 : Comp.ctr ∈ ks) : blank ks (joinUp r ep fuel l s).2 = blank ks s := by
  induction fuel generalizing s l with
  | zero => rfl
  | succ n ih =>
    unfold joinUp
    repeat' first
      | with_reducible rfl
      | (simp [*]; done)
      | split
      | dsimp only
      | simp [*]

@[simp] theorem blank_pack (r : Nat) (ep : BitVec 16) (held : List Req) (s : State) (h0 : Comp.slc ∈ ks) (h1 :
    Comp.dlv ∈ ks) (h2 : Comp.ctr ∈ ks) : blank ks (pack r ep held s).2 = blank ks s := by
  unfold pack
  repeat' first
    | with_reducible rfl
    | (simp [*]; done)
    | split
    | (refine (blank_foldl (fun _ _ => ?_) _ _).trans ?_)
    | dsimp only
    | simp [*]

@[simp] theorem blank_grantRec (c : Nat) (q : Req) (r : BitVec 15) (s : State) (h0 : Comp.slc ∈ ks) (h1 : Comp.dlv ∈
    ks) (h2 : Comp.ctr ∈ ks) : blank ks (grantRec c q r s) = blank ks s := by
  simp [grantRec, *]

@[simp] theorem blank_grantCand (ch : Nat) (c : Cand) (s : State) (h0 : Comp.slc ∈ ks) (h1 : Comp.dlv ∈ ks) (h2 :
    Comp.ctr ∈ ks) : blank ks (grantCand ch c s) = blank ks s := by
  unfold grantCand
  repeat' first
    | with_reducible rfl
    | (simp [*]; done)
    | split
    | (refine (blank_foldl (fun _ _ => ?_) _ _).trans ?_)
    | dsimp only
    | simp [*]

@[simp] theorem blank_decideFor (ch : Nat) (l : List Cand) (w : Cand) (nth : Bool) (s : State) (h0 : Comp.slc ∈ ks)
    (h1 : Comp.dlv ∈ ks) (h2 : Comp.ctr ∈ ks) : blank ks (decideFor ch l w nth s) = blank ks s := by
  simp [decideFor, *]

@[simp] theorem blank_advanceHalf (r n res : Nat) (s : State) (h0 : Comp.dlv ∈ ks) (h1 : Comp.ctr ∈ ks) : blank ks
    (advanceHalf r n res s) = blank ks s := by
  simp [advanceHalf, *]

@[simp] theorem blank_memberLaunched (k : Nat) (s : State) (h0 : Comp.slc ∈ ks) (h1 : Comp.dlv ∈ ks) (h2 : Comp.ctr ∈
    ks) : blank ks (memberLaunched k s) = blank ks s := by
  unfold memberLaunched
  repeat' first
    | with_reducible rfl
    | (simp [*]; done)
    | split
    | (refine (blank_foldl (fun _ _ => ?_) _ _).trans ?_)
    | dsimp only
    | simp [*]

@[simp] theorem blank_eventLaunched (k : Nat) (mirror : Bool) (s : State) (h0 : Comp.slc ∈ ks) (h1 : Comp.dlv ∈ ks)
    (h2 : Comp.twin ∈ ks) (h3 : Comp.ctr ∈ ks) : blank ks (eventLaunched k mirror s) = blank ks s := by
  unfold eventLaunched
  repeat' first
    | with_reducible rfl
    | (simp [*]; done)
    | split
    | (refine (blank_foldl (fun _ _ => ?_) _ _).trans ?_)
    | dsimp only
    | simp [*]

@[simp] theorem blank_reqLaunched (r : Nat) (x : Rec) (q : Req) (s : State) (h0 : Comp.intake ∈ ks) (h1 : Comp.slc ∈
    ks) (h2 : Comp.dlv ∈ ks) (h3 : Comp.twin ∈ ks) (h4 : Comp.tly ∈ ks) (h5 : Comp.ctr ∈ ks) : blank ks (reqLaunched r
    x q s) = blank ks s := by
  unfold reqLaunched
  repeat' first
    | with_reducible rfl
    | (simp [*]; done)
    | split
    | (refine (blank_foldl (fun _ _ => ?_) _ _).trans ?_)
    | dsimp only
    | simp [*]

@[simp] theorem blank_deadReq (r : Nat) (stopped restarted : Bool) (q : Req) (s : State) (h0 : Comp.intake ∈ ks) (h1 :
    Comp.slc ∈ ks) (h2 : Comp.dlv ∈ ks) (h3 : Comp.twin ∈ ks) (h4 : Comp.relay ∈ ks) (h5 : Comp.tly ∈ ks) (h6 :
    Comp.ctr ∈ ks) : blank ks (deadReq r stopped restarted q s) = blank ks s := by
  unfold deadReq
  repeat' first
    | with_reducible rfl
    | (simp [*]; done)
    | split
    | (refine (blank_foldl (fun _ _ => ?_) _ _).trans ?_)
    | dsimp only
    | simp [*]

@[simp] theorem blank_deadGrant (r : Nat) (qs : List Req) (stopped restarted : Bool) (s : State) (h0 : Comp.intake ∈
    ks) (h1 : Comp.slc ∈ ks) (h2 : Comp.dlv ∈ ks) (h3 : Comp.twin ∈ ks) (h4 : Comp.relay ∈ ks) (h5 : Comp.tly ∈ ks)
    (h6 : Comp.ctr ∈ ks) : blank ks (deadGrant r qs stopped restarted s) = blank ks s := by
  simp [deadGrant, *]

@[simp] theorem blank_launchRecs (c r : Nat) (qs : List Req) (ent : RingEnt) (rg : Region) (tag : BitVec 12) (s :
    State) (hw : Wide ks) : blank ks (launchRecs c r qs ent rg tag s) = blank ks s := by
  unfold launchRecs
  repeat' first
    | with_reducible rfl
    | (simp [*]; done)
    | split
    | (refine (blank_foldl (fun _ _ => ?_) _ _).trans ?_)
    | dsimp only
    | simp [*]

@[simp] theorem blank_launchGrant (c r : Nat) (qs : List Req) (restart : Nat) (ver : RingEnt) (tag : BitVec 12) (s :
    State) (hw : Wide ks) : blank ks (launchGrant c r qs restart ver tag s) = blank ks s := by
  unfold launchGrant
  repeat' first
    | with_reducible rfl
    | (simp [*]; done)
    | split
    | (refine (blank_foldl (fun _ _ => ?_) _ _).trans ?_)
    | dsimp only
    | simp [*]

@[simp] theorem blank_ownFault (t : WTarget) (s : State) (h0 : Comp.slc ∈ ks) (h1 : Comp.dlv ∈ ks) (h2 : Comp.twin ∈
    ks) (h3 : Comp.tly ∈ ks) (h4 : Comp.ctr ∈ ks) (h5 : Comp.log ∈ ks) : blank ks (ownFault t s) = blank ks s := by
  unfold ownFault
  repeat' first
    | with_reducible rfl
    | (simp [*]; done)
    | split
    | (refine (blank_foldl (fun _ _ => ?_) _ _).trans ?_)
    | dsimp only
    | simp [*]

@[simp] theorem blank_launchOwn (c : Nat) (o : Own) (tag : BitVec 12) (s : State) (h0 : Comp.out ∈ ks) (h1 :
    Comp.freeCtr ∈ ks) (h2 : Comp.slc ∈ ks) (h3 : Comp.dlv ∈ ks) (h4 : Comp.gates ∈ ks) (h5 : Comp.twin ∈ ks) (h6 :
    Comp.tly ∈ ks) (h7 : Comp.ctr ∈ ks) (h8 : Comp.log ∈ ks) : blank ks (launchOwn c o tag s) = blank ks s := by
  unfold launchOwn
  repeat' first
    | with_reducible rfl
    | (simp [*]; done)
    | split
    | (refine (blank_foldl (fun _ _ => ?_) _ _).trans ?_)
    | dsimp only
    | simp [*]

@[simp] theorem blank_gatherMore (r n : Nat) (ep : BitVec 16) (qs : List Req) (s : State) (h0 : Comp.slc ∈ ks) (h1 :
    Comp.dlv ∈ ks) (h2 : Comp.ctr ∈ ks) : blank ks (gatherMore r n ep qs s).2 = blank ks s := by
  unfold gatherMore
  repeat' first
    | with_reducible rfl
    | (simp [*]; done)
    | split
    | (refine (blank_foldl (fun _ _ => ?_) _ _).trans ?_)
    | dsimp only
    | simp [*]

@[simp] theorem blank_joinOpen (s : State) (x : List Grant) (h0 : Comp.slc ∈ ks) (h1 : Comp.dlv ∈ ks) (h2 : Comp.ctr ∈
    ks) : blank ks (joinOpen s x).2 = blank ks s := by
  induction x generalizing s with
  | nil => rfl
  | cons g rest ih =>
    unfold joinOpen
    split
    · rfl
    · next h => cases h; simp [*]
    · next h => cases h; simp [*]

@[simp] theorem blank_joinWindows (s : State) (h0 : Comp.slc ∈ ks) (h1 : Comp.dlv ∈ ks) (h2 : Comp.ctr ∈ ks) : blank
    ks (joinWindows s) = blank ks s := by
  unfold joinWindows
  repeat' first
    | with_reducible rfl
    | (simp [*]; done)
    | split
    | (refine (blank_foldl (fun _ _ => ?_) _ _).trans ?_)
    | dsimp only
    | simp [*]

@[simp] theorem blank_releaseReq (q : Req) (s : State) (h0 : Comp.dlv ∈ ks) (h1 : Comp.ctr ∈ ks) : blank ks
    (releaseReq q s) = blank ks s := by
  unfold releaseReq
  repeat' first
    | with_reducible rfl
    | (simp [*]; done)
    | split
    | (refine (blank_foldl (fun _ _ => ?_) _ _).trans ?_)
    | dsimp only
    | simp [*]

@[simp] theorem blank_pullReqs (k : Nat) (s : State) (h0 : Comp.dlv ∈ ks) (h1 : Comp.relay ∈ ks) : blank ks (pullReqs
    k s) = blank ks s := by
  simp [pullReqs, *]

@[simp] theorem blank_loseWithdraw (k : Nat) (s : State) (h0 : Comp.slc ∈ ks) (h1 : Comp.ctr ∈ ks) : blank ks
    (loseWithdraw k s) = blank ks s := by
  unfold loseWithdraw
  repeat' first
    | with_reducible rfl
    | (simp [*]; done)
    | split
    | (refine (blank_foldl (fun _ _ => ?_) _ _).trans ?_)
    | dsimp only
    | simp [*]

@[simp] theorem blank_settleWithdraw (k : Nat) (s : State) (h0 : Comp.slc ∈ ks) (h1 : Comp.dlv ∈ ks) (h2 : Comp.twin ∈
    ks) (h3 : Comp.relay ∈ ks) (h4 : Comp.tly ∈ ks) (h5 : Comp.ctr ∈ ks) : blank ks (settleWithdraw k s) = blank ks s
    := by
  simp [settleWithdraw, *]

@[simp] theorem blank_toStage (l : Nat) (s : State) (h0 : Comp.slc ∈ ks) (h1 : Comp.dlv ∈ ks) (h2 : Comp.relay ∈ ks) :
    blank ks (toStage l s) = blank ks s := by
  unfold toStage
  repeat' first
    | with_reducible rfl
    | (simp [*]; done)
    | split
    | (refine (blank_foldl (fun _ _ => ?_) _ _).trans ?_)
    | dsimp only
    | simp [*]

end Sys2Proof.Machine
end

