-- ==== Sys2Proof/Laws/FrameTxnOps.lean ====
section
/-! SUPPORT. Frames of the operations of Machine/TxnOps.lean (see Frame.lean). -/

namespace Sys2Proof.Machine

open Sys2Proof.Safety

variable {ks : List Comp}

@[simp] theorem blank_releaseColour (s : State) (h0 : Comp.gates ∈ ks) : blank ks (releaseColour s) = blank ks s := by
  unfold releaseColour
  repeat' first
    | with_reducible rfl
    | (simp [*]; done)
    | split
    | (refine (blank_foldl (fun _ _ => ?_) _ _).trans ?_)
    | dsimp only
    | simp [*]

@[simp] theorem blank_installRegion (k : Nat) (r : Region) (s : State) (h0 : Comp.gates ∈ ks) : blank ks
    (installRegion k r s) = blank ks s := by
  simp [installRegion, *]

@[simp] theorem blank_skipDisabled (r : Nat) (s : State) (h0 : Comp.slc ∈ ks) (h1 : Comp.dlv ∈ ks) (h2 : Comp.twin ∈
    ks) (h3 : Comp.ctr ∈ ks) : blank ks (skipDisabled r s) = blank ks s := by
  unfold skipDisabled
  repeat' first
    | with_reducible rfl
    | (simp [*]; done)
    | split
    | (refine (blank_foldl (fun _ _ => ?_) _ _).trans ?_)
    | dsimp only
    | simp [*]

@[simp] theorem blank_leaveQuiesced (r : Nat) (s : State) (h0 : Comp.dlv ∈ ks) : blank ks (leaveQuiesced r s) = blank
    ks s := by
  unfold leaveQuiesced
  repeat' first
    | with_reducible rfl
    | (simp [*]; done)
    | split
    | (refine (blank_foldl (fun _ _ => ?_) _ _).trans ?_)
    | dsimp only
    | simp [*]

@[simp] theorem blank_installRing (r : Nat) (e : RingEnt) (x : BitVec 16) (restart : Bool) (s : State) (h0 :
    Comp.intake ∈ ks) (h1 : Comp.slc ∈ ks) (h2 : Comp.dlv ∈ ks) (h3 : Comp.twin ∈ ks) (h4 : Comp.relay ∈ ks) (h5 :
    Comp.tly ∈ ks) (h6 : Comp.ctr ∈ ks) : blank ks (installRing r e x restart s) = blank ks s := by
  simp [installRing, *]

@[simp] theorem blank_installGroup (g : Nat) (w : Reg64) (s : State) (h0 : Comp.slc ∈ ks) (h1 : Comp.dlv ∈ ks) : blank
    ks (installGroup g w s) = blank ks s := by
  simp [installGroup, *]

@[simp] theorem blank_installSrc (k : Nat) (e : SrcEntry) (x : BitVec 16) (s : State) (h0 : Comp.slc ∈ ks) : blank ks
    (installSrc k e x s) = blank ks s := by
  simp [installSrc, *]

@[simp] theorem blank_installItem (x : BitVec 16) (restart : Bool) (i : Item) (s : State) (h0 : Comp.intake ∈ ks) (h1
    : Comp.slc ∈ ks) (h2 : Comp.dlv ∈ ks) (h3 : Comp.gates ∈ ks) (h4 : Comp.twin ∈ ks) (h5 : Comp.relay ∈ ks) (h6 :
    Comp.tly ∈ ks) (h7 : Comp.ctr ∈ ks) : blank ks (installItem x restart i s) = blank ks s := by
  unfold installItem
  repeat' first
    | with_reducible rfl
    | (simp [*]; done)
    | split
    | (refine (blank_foldl (fun _ _ => ?_) _ _).trans ?_)
    | dsimp only
    | simp [*]

@[simp] theorem blank_settleLatches (s : State) (h0 : Comp.intake ∈ ks) : blank ks (settleLatches s) = blank ks s :=
    by
  simp [settleLatches, *]

@[simp] theorem blank_dropCaptured (k : Nat) (s : State) (h0 : Comp.slc ∈ ks) (h1 : Comp.ctr ∈ ks) : blank ks
    (dropCaptured k s) = blank ks s := by
  simp [dropCaptured, *]

@[simp] theorem blank_endCaptureOne (k : Nat) (s : State) (h0 : Comp.slc ∈ ks) (h1 : Comp.ctr ∈ ks) : blank ks
    (endCaptureOne k s) = blank ks s := by
  unfold endCaptureOne
  repeat' first
    | with_reducible rfl
    | (simp [*]; done)
    | split
    | (refine (blank_foldl (fun _ _ => ?_) _ _).trans ?_)
    | dsimp only
    | simp [*]

@[simp] theorem blank_endCapture (s : State) (h0 : Comp.glb ∈ ks) (h1 : Comp.slc ∈ ks) (h2 : Comp.ctr ∈ ks) : blank ks
    (endCapture s) = blank ks s := by
  simp [endCapture, *]

@[simp] theorem blank_flipAt (x : BitVec 16) (restart : Bool) (t : Txn) (s : State) (hw : Wide ks) : blank ks (flipAt
    x restart t s) = blank ks s := by
  unfold flipAt
  repeat' first
    | with_reducible rfl
    | (simp [*]; done)
    | split
    | (refine (blank_foldl (fun _ _ => ?_) _ _).trans ?_)
    | dsimp only
    | simp [*]

@[simp] theorem blank_flipTxn (t : Txn) (s : State) (hw : Wide ks) : blank ks (flipTxn t s) = blank ks s := by
  simp [flipTxn, *]

@[simp] theorem blank_flip (w : CommitWhat) (s : State) (hw : Wide ks) : blank ks (flip w s) = blank ks s := by
  unfold flip
  repeat' first
    | with_reducible rfl
    | (simp [*]; done)
    | split
    | (refine (blank_foldl (fun _ _ => ?_) _ _).trans ?_)
    | dsimp only
    | simp [*]

@[simp] theorem blank_sendReq (m : SMsg) (s : State) (h0 : Comp.link ∈ ks) : blank ks (sendReq m s) = blank ks s := by
  simp [sendReq, *]

@[simp] theorem blank_sendCkpt (w : Ticket) (s : State) (h0 : Comp.link ∈ ks) : blank ks (sendCkpt w s) = blank ks s
    := by
  simp [sendCkpt, *]

@[simp] theorem blank_sendRsp (m : SMsg) (s : State) (h0 : Comp.link ∈ ks) : blank ks (sendRsp m s) = blank ks s := by
  simp [sendRsp, *]

@[simp] theorem blank_readReq (what : RdWhat) (s : State) (h0 : Comp.out ∈ ks) (h1 : Comp.freeCtr ∈ ks) (h2 :
    Comp.twin ∈ ks) (h3 : Comp.ctr ∈ ks) : blank ks (readReq what s) = blank ks s := by
  unfold readReq
  repeat' first
    | with_reducible rfl
    | (simp [*]; done)
    | split
    | (refine (blank_foldl (fun _ _ => ?_) _ _).trans ?_)
    | dsimp only
    | simp [*]

@[simp] theorem blank_readImage (base : BitVec 64) (ok : Bool) (kib : Nat) (s : State) (h0 : Comp.out ∈ ks) (h1 :
    Comp.freeCtr ∈ ks) (h2 : Comp.ctr ∈ ks) : blank ks (readImage base ok kib s) = blank ks s := by
  unfold readImage
  repeat' first
    | with_reducible rfl
    | (simp [*]; done)
    | split
    | (refine (blank_foldl (fun _ _ => ?_) _ _).trans ?_)
    | dsimp only
    | simp [*]

@[simp] theorem blank_renewCommit (s : State) (h0 : Comp.out ∈ ks) (h1 : Comp.freeCtr ∈ ks) (h2 : Comp.twin ∈ ks) (h3
    : Comp.ctr ∈ ks) : blank ks (renewCommit s) = blank ks s := by
  unfold renewCommit
  repeat' first
    | with_reducible rfl
    | (simp [*]; done)
    | split
    | (refine (blank_foldl (fun _ _ => ?_) _ _).trans ?_)
    | dsimp only
    | simp [*]

@[simp] theorem blank_wakeDips (s : State) (h0 : Comp.pwr ∈ ks) : blank ks (wakeDips s) = blank ks s := by
  unfold wakeDips
  repeat' first
    | with_reducible rfl
    | (simp [*]; done)
    | split
    | (refine (blank_foldl (fun _ _ => ?_) _ _).trans ?_)
    | dsimp only
    | simp [*]

@[simp] theorem blank_closeTxn (m : Mbx) (s : State) (h0 : Comp.mbx ∈ ks) : blank ks (closeTxn m s) = blank ks s := by
  simp [closeTxn, *]

@[simp] theorem blank_journalNow (m : Mbx) (res : List DW) (s : State) (h0 : Comp.freeCtr ∈ ks) (h1 : Comp.mbx ∈ ks) :
    blank ks (journalNow m res s) = blank ks s := by
  unfold journalNow
  repeat' first
    | with_reducible rfl
    | (simp [*]; done)
    | split
    | (refine (blank_foldl (fun _ _ => ?_) _ _).trans ?_)
    | dsimp only
    | simp [*]

@[simp] theorem blank_answerJournal (m : Mbx) (s : State) (h0 : Comp.pwr ∈ ks) (h1 : Comp.intake ∈ ks) (h2 : Comp.mbx
    ∈ ks) (h3 : Comp.ctr ∈ ks) : blank ks (answerJournal m s) = blank ks s := by
  unfold answerJournal
  repeat' first
    | with_reducible rfl
    | (simp [*]; done)
    | split
    | (refine (blank_foldl (fun _ _ => ?_) _ _).trans ?_)
    | dsimp only
    | simp [*]

@[simp] theorem blank_endCommit (m : Mbx) (status : Byte) (s : State) (h0 : Comp.freeCtr ∈ ks) (h1 : Comp.pwr ∈ ks)
    (h2 : Comp.intake ∈ ks) (h3 : Comp.mbx ∈ ks) (h4 : Comp.fw ∈ ks) (h5 : Comp.ctr ∈ ks) : blank ks (endCommit m
    status s) = blank ks s := by
  simp [endCommit, *]

@[simp] theorem blank_flipFor (m : Mbx) (t : Txn) (s : State) (hw : Wide ks) : blank ks (flipFor m t s) = blank ks s
    := by
  simp [flipFor, *]

@[simp] theorem blank_sendDecide (s : State) (h0 : Comp.link ∈ ks) : blank ks (sendDecide s) = blank ks s := by
  simp [sendDecide, *]

@[simp] theorem blank_discardTxns (t : BitVec 8) (keep : Option Nat) (s : State) (h0 : Comp.mbx ∈ ks) : blank ks
    (discardTxns t keep s) = blank ks s := by
  unfold discardTxns
  repeat' first
    | with_reducible rfl
    | (simp [*]; done)
    | split
    | (refine (blank_foldl (fun _ _ => ?_) _ _).trans ?_)
    | dsimp only
    | simp [*]

@[simp] theorem blank_discardAll (s : State) (h0 : Comp.mbx ∈ ks) : blank ks (discardAll s) = blank ks s := by
  simp [discardAll, *]

end Sys2Proof.Machine
end

