-- ==== Sys2Proof/Laws/FrameSettle.lean ====
section
/-! SUPPORT. Frames of the operations of Machine/Settle.lean (see Frame.lean). -/

namespace Sys2Proof.Machine

open Sys2Proof.Safety

variable {ks : List Comp}

@[simp] theorem blank_sealStart (m : Mbx) (t : BitVec 8) (s : State) (h0 : Comp.intake ∈ ks) (h1 : Comp.slc ∈ ks) (h2
    : Comp.dlv ∈ ks) (h3 : Comp.mbx ∈ ks) (h4 : Comp.twin ∈ ks) (h5 : Comp.relay ∈ ks) (h6 : Comp.tly ∈ ks) (h7 :
    Comp.ctr ∈ ks) : blank ks (sealStart m t s) = blank ks s := by
  simp [sealStart, *]

@[simp] theorem blank_sealFinish (t : BitVec 8) (s : State) (hw : Wide ks) : blank ks (sealFinish t s) = blank ks s :=
    by
  unfold sealFinish
  repeat' first
    | with_reducible rfl
    | (simp [*]; done)
    | split
    | (refine (blank_foldl (fun _ _ => ?_) _ _).trans ?_)
    | dsimp only
    | simp [*]

@[simp] theorem blank_retractSrc (k : Nat) (s : State) (h0 : Comp.slc ∈ ks) (h1 : Comp.dlv ∈ ks) (h2 : Comp.twin ∈ ks)
    (h3 : Comp.relay ∈ ks) (h4 : Comp.tly ∈ ks) (h5 : Comp.ctr ∈ ks) : blank ks (retractSrc k s) = blank ks s := by
  unfold retractSrc
  repeat' first
    | with_reducible rfl
    | (simp [*]; done)
    | split
    | (refine (blank_foldl (fun _ _ => ?_) _ _).trans ?_)
    | dsimp only
    | simp [*]

@[simp] theorem blank_destroyStart (t : BitVec 8) (s : State) (h0 : Comp.intake ∈ ks) (h1 : Comp.slc ∈ ks) (h2 :
    Comp.dlv ∈ ks) (h3 : Comp.gates ∈ ks) (h4 : Comp.mbx ∈ ks) (h5 : Comp.twin ∈ ks) (h6 : Comp.relay ∈ ks) (h7 :
    Comp.tly ∈ ks) (h8 : Comp.ctr ∈ ks) : blank ks (destroyStart t s) = blank ks s := by
  simp [destroyStart, *]

@[simp] theorem blank_clearRequests (k : Nat) (s : State) (h0 : Comp.dlv ∈ ks) (h1 : Comp.relay ∈ ks) (h2 : Comp.ctr ∈
    ks) : blank ks (clearRequests k s) = blank ks s := by
  simp [clearRequests, *]

@[simp] theorem blank_zeroGranule (g : Nat) (s : State) (h0 : Comp.slc ∈ ks) (h1 : Comp.dlv ∈ ks) (h2 : Comp.relay ∈
    ks) (h3 : Comp.ctr ∈ ks) : blank ks (zeroGranule g s) = blank ks s := by
  simp [zeroGranule, *]

@[simp] theorem blank_zeroTables (t : BitVec 8) (s : State) (h0 : Comp.slc ∈ ks) (h1 : Comp.dlv ∈ ks) : blank ks
    (zeroTables t s) = blank ks s := by
  simp [zeroTables, *]

@[simp] theorem blank_mergeDone (s : State) (h0 : Comp.glb ∈ ks) : blank ks (mergeDone s) = blank ks s := by
  simp [mergeDone, *]

@[simp] theorem blank_finalTicket (t : Nat) (s : State) (h0 : Comp.dlv ∈ ks) (h1 : Comp.link ∈ ks) (h2 : Comp.tly ∈
    ks) (h3 : Comp.ctr ∈ ks) : blank ks (finalTicket t s) = blank ks s := by
  simp [finalTicket, *]

@[simp] theorem blank_destroyFinish (t : BitVec 8) (s : State) (h0 : Comp.glb ∈ ks) (h1 : Comp.slc ∈ ks) (h2 :
    Comp.dlv ∈ ks) (h3 : Comp.tenant ∈ ks) (h4 : Comp.fw ∈ ks) (h5 : Comp.link ∈ ks) (h6 : Comp.relay ∈ ks) (h7 :
    Comp.tly ∈ ks) (h8 : Comp.ctr ∈ ks) : blank ks (destroyFinish t s) = blank ks s := by
  simp [destroyFinish, *]

@[simp] theorem blank_askPeer (m : Mbx) (dws : List DW) (s : State) (h0 : Comp.fw ∈ ks) (h1 : Comp.link ∈ ks) : blank
    ks (askPeer m dws s) = blank ks s := by
  unfold askPeer
  repeat' first
    | with_reducible rfl
    | (simp [*]; done)
    | split
    | (refine (blank_foldl (fun _ _ => ?_) _ _).trans ?_)
    | dsimp only
    | simp [*]

@[simp] theorem blank_destroyEnd (m : Mbx) (t : BitVec 8) (s : State) (hw : Wide ks) : blank ks (destroyEnd m t s) =
    blank ks s := by
  simp [destroyEnd, *]

@[simp] theorem blank_clearSource (k : Nat) (s0 : State) (h0 : Comp.slc ∈ ks) (h1 : Comp.dlv ∈ ks) (h2 : Comp.relay ∈
    ks) (h3 : Comp.ctr ∈ ks) : blank ks (clearSource k s0) = blank ks s0 := by
  simp [clearSource, *]

@[simp] theorem blank_clearGranules (first count : Nat) (s : State) (h0 : Comp.slc ∈ ks) (h1 : Comp.dlv ∈ ks) (h2 :
    Comp.relay ∈ ks) (h3 : Comp.ctr ∈ ks) : blank ks (clearGranules first count s) = blank ks s := by
  simp [clearGranules, *]

@[simp] theorem blank_settleOne (m : Mbx) (s : State) (hw : Wide ks) : blank ks (settleOne m s) = blank ks s := by
  unfold settleOne
  generalize (s.mailbox (mbxKey m)).busy = b
  cases b <;> dsimp only
  all_goals
    repeat' first
      | with_reducible rfl
      | (simp [hw]; done)
      | split

@[simp] theorem blank_settleMask (s : State) (h0 : Comp.slc ∈ ks) : blank ks (settleMask s) = blank ks s := by
  unfold settleMask
  repeat' first
    | with_reducible rfl
    | (simp [*]; done)
    | split
    | (refine (blank_foldl (fun _ _ => ?_) _ _).trans ?_)
    | dsimp only
    | simp [*]

@[simp] theorem blank_voteYes (w : CommitWhat) (epoch : BitVec 16) (s : State) (h0 : Comp.fw ∈ ks) (h1 : Comp.link ∈
    ks) : blank ks (voteYes w epoch s) = blank ks s := by
  simp [voteYes, *]

@[simp] theorem blank_voteNo (epoch : BitVec 16) (reason : Byte) (s : State) (h0 : Comp.link ∈ ks) : blank ks (voteNo
    epoch reason s) = blank ks s := by
  simp [voteNo, *]

@[simp] theorem blank_settleVote (s : State) (h0 : Comp.glb ∈ ks) (h1 : Comp.slc ∈ ks) (h2 : Comp.dlv ∈ ks) (h3 :
    Comp.tenant ∈ ks) (h4 : Comp.fw ∈ ks) (h5 : Comp.link ∈ ks) (h6 : Comp.relay ∈ ks) (h7 : Comp.tly ∈ ks) (h8 :
    Comp.ctr ∈ ks) : blank ks (settleVote s) = blank ks s := by
  unfold settleVote
  repeat' first
    | with_reducible rfl
    | (simp [*]; done)
    | split
    | (refine (blank_foldl (fun _ _ => ?_) _ _).trans ?_)
    | dsimp only
    | simp [*]

@[simp] theorem blank_settleAsked (s : State) (h0 : Comp.fw ∈ ks) (h1 : Comp.link ∈ ks) : blank ks (settleAsked s) =
    blank ks s := by
  unfold settleAsked
  repeat' first
    | with_reducible rfl
    | (simp [*]; done)
    | split
    | (refine (blank_foldl (fun _ _ => ?_) _ _).trans ?_)
    | dsimp only
    | simp [*]

@[simp] theorem blank_settleMbx (s : State) (hw : Wide ks) : blank ks (settleMbx s) = blank ks s := by
  simp [settleMbx, *]

end Sys2Proof.Machine
end

