-- ==== Sys2Proof/Laws/FrameIntake.lean ====
section
/-! SUPPORT. Frames of the operations of Machine/Intake.lean (see Frame.lean). -/

namespace Sys2Proof.Machine

open Sys2Proof.Safety

variable {ks : List Comp}

@[simp] theorem blank_fencesGo (s : State) (h0 : Comp.intake ∈ ks) (h1 : Comp.dlv ∈ ks) (h2 : Comp.ctr ∈ ks) : blank
    ks (fencesGo s) = blank ks s := by
  simp [fencesGo, *]

@[simp] theorem blank_serveHeld (dip : Nat) (s : State) (hw : Wide ks) : blank ks (serveHeld dip s) = blank ks s := by
  simp [serveHeld, *]

@[simp] theorem blank_doDipHandshake (dip : Nat) (mv : BitVec 4) (d : BitVec 512) (s : State) (hw : Wide ks) : blank
    ks (doDipHandshake dip mv d s) = blank ks s := by
  simp [doDipHandshake, *]

@[simp] theorem blank_doFolderSliceAnswer (dip : Nat) (src : BitVec 18) (s : State) (h0 : Comp.pwr ∈ ks) (h1 :
    Comp.intake ∈ ks) (h2 : Comp.link ∈ ks) (h3 : Comp.ctr ∈ ks) : blank ks (doFolderSliceAnswer dip src s) = blank ks
    s := by
  unfold doFolderSliceAnswer
  repeat' first
    | with_reducible rfl
    | (simp [*]; done)
    | split
    | (refine (blank_foldl (fun _ _ => ?_) _ _).trans ?_)
    | dsimp only
    | simp [*]

@[simp] theorem blank_stampApply (sl : Nat) (s : State) (h0 : Comp.intake ∈ ks) : blank ks (stampApply sl s) = blank
    ks s := by
  simp [stampApply, *]

@[simp] theorem blank_forwardHead (o : Origin) (q : Nat) (m : Msg) (rest : List Msg) (s : State) (hw : Wide ks) :
    blank ks (forwardHead o q m rest s) = blank ks s := by
  unfold forwardHead
  repeat' first
    | with_reducible rfl
    | (simp [*]; done)
    | split
    | (refine (blank_foldl (fun _ _ => ?_) _ _).trans ?_)
    | dsimp only
    | simp [*]

@[simp] theorem blank_doSliceApply (o : Origin) (slice : Nat) (s : State) (hw : Wide ks) : blank ks (doSliceApply o
    slice s) = blank ks s := by
  unfold doSliceApply
  repeat' first
    | with_reducible rfl
    | (simp [*]; done)
    | split
    | (refine (blank_foldl (fun _ _ => ?_) _ _).trans ?_)
    | dsimp only
    | simp [*]

@[simp] theorem blank_doEdgeCaught (n : Nat) (s : State) (h0 : Comp.intake ∈ ks) : blank ks (doEdgeCaught n s) = blank
    ks s := by
  simp [doEdgeCaught, *]

@[simp] theorem blank_doLevelChangeSettled (n : Nat) (level : Bool) (s : State) (h0 : Comp.intake ∈ ks) : blank ks
    (doLevelChangeSettled n level s) = blank ks s := by
  simp [doLevelChangeSettled, *]

@[simp] theorem blank_presentWired (n : Nat) (kind : BitVec 4) (count : Nat) (s : State) (h0 : Comp.pwr ∈ ks) (h1 :
    Comp.intake ∈ ks) (h2 : Comp.ctr ∈ ks) : blank ks (presentWired n kind count s) = blank ks s := by
  simp [presentWired, *]

@[simp] theorem blank_doWiredPresentation (n : Nat) (s : State) (h0 : Comp.pwr ∈ ks) (h1 : Comp.intake ∈ ks) (h2 :
    Comp.ctr ∈ ks) : blank ks (doWiredPresentation n s) = blank ks s := by
  unfold doWiredPresentation
  repeat' first
    | with_reducible rfl
    | (simp [*]; done)
    | split
    | (refine (blank_foldl (fun _ _ => ?_) _ _).trans ?_)
    | dsimp only
    | simp [*]

end Sys2Proof.Machine
end

