-- ==== Sys2Proof/Laws/FrameRanking.lean ====
section
/-! SUPPORT. Frames of the operations of Machine/Ranking.lean (see Frame.lean). -/

namespace Sys2Proof.Machine

open Sys2Proof.Safety

variable {ks : List Comp}

@[simp] theorem blank_afterDlv (s : State) (hw : Wide ks) : blank ks (afterDlv s) = blank ks s := by
  simp [afterDlv, *]

@[simp] theorem blank_doSelect (slice : Nat) (s : State) (h0 : Comp.slc ∈ ks) (h1 : Comp.dlv ∈ ks) (h2 : Comp.ctr ∈
    ks) : blank ks (doSelect slice s) = blank ks s := by
  simp [doSelect, *]

@[simp] theorem blank_doLevelQueueEntry (l : Nat) (s : State) (hw : Wide ks) : blank ks (doLevelQueueEntry l s) =
    blank ks s := by
  unfold doLevelQueueEntry
  repeat' first
    | with_reducible rfl
    | (simp [*]; done)
    | split
    | (refine (blank_foldl (fun _ _ => ?_) _ _).trans ?_)
    | dsimp only
    | simp [*]

@[simp] theorem blank_returnPaced (l : Nat) (s : State) (h0 : Comp.intake ∈ ks) (h1 : Comp.slc ∈ ks) (h2 : Comp.dlv ∈
    ks) (h3 : Comp.twin ∈ ks) (h4 : Comp.relay ∈ ks) (h5 : Comp.tly ∈ ks) (h6 : Comp.ctr ∈ ks) : blank ks (returnPaced
    l s) = blank ks s := by
  simp [returnPaced, *]

@[simp] theorem blank_doPacerTokenTaken (l : Nat) (s : State) (hw : Wide ks) : blank ks (doPacerTokenTaken l s) =
    blank ks s := by
  unfold doPacerTokenTaken
  split
  · dsimp only
    split
    · next h => simp [hw, blank_findPaced h (hw.mem (by simp) (by simp))]
    · simp [hw]
  · rfl

@[simp] theorem blank_doArbiterDecision (ch : Nat) (s : State) (h0 : Comp.slc ∈ ks) (h1 : Comp.dlv ∈ ks) (h2 :
    Comp.ctr ∈ ks) : blank ks (doArbiterDecision ch s) = blank ks s := by
  unfold doArbiterDecision
  repeat' first
    | with_reducible rfl
    | (simp [*]; done)
    | split
    | (refine (blank_foldl (fun _ _ => ?_) _ _).trans ?_)
    | dsimp only
    | simp [*]

@[simp] theorem blank_closeGather (s : State) (x : List Grant) (h0 : Comp.slc ∈ ks) (h1 : Comp.dlv ∈ ks) (h2 :
    Comp.ctr ∈ ks) : blank ks (closeGather s x).2 = blank ks s := by
  induction x with
  | nil => rfl
  | cons g rest ih =>
    unfold closeGather
    split
    · rfl
    · next h => cases h; simp [*]
    · next h => cases h; simp [*]

@[simp] theorem blank_doGatherWindowEnd (ch : Nat) (s : State) (h0 : Comp.slc ∈ ks) (h1 : Comp.dlv ∈ ks) (h2 :
    Comp.ctr ∈ ks) : blank ks (doGatherWindowEnd ch s) = blank ks s := by
  simp [doGatherWindowEnd, *]

@[simp] theorem blank_doWithdrawSettle (k : Nat) (s : State) (hw : Wide ks) : blank ks (doWithdrawSettle k s) = blank
    ks s := by
  simp [doWithdrawSettle, *]

@[simp] theorem blank_launchOne (ch : Nat) (g : Grant) (tag : BitVec 12) (s : State) (hw : Wide ks) : blank ks
    (launchOne ch g tag s) = blank ks s := by
  unfold launchOne
  repeat' first
    | with_reducible rfl
    | (simp [*]; done)
    | split
    | (refine (blank_foldl (fun _ _ => ?_) _ _).trans ?_)
    | dsimp only
    | simp [*]

@[simp] theorem blank_doLaunch (ch : Nat) (s : State) (hw : Wide ks) : blank ks (doLaunch ch s) = blank ks s := by
  unfold doLaunch
  repeat' first
    | with_reducible rfl
    | (simp [*]; done)
    | split
    | (refine (blank_foldl (fun _ _ => ?_) _ _).trans ?_)
    | dsimp only
    | simp [*]

@[simp] theorem blank_doRelayStageGrant (l : Nat) (s : State) (h0 : Comp.slc ∈ ks) (h1 : Comp.dlv ∈ ks) (h2 :
    Comp.relay ∈ ks) : blank ks (doRelayStageGrant l s) = blank ks s := by
  simp [doRelayStageGrant, *]

@[simp] theorem blank_freeOutst (ch tag : Nat) (s : State) (h0 : Comp.out ∈ ks) (h1 : Comp.freeCtr ∈ ks) (h2 :
    Comp.slc ∈ ks) (h3 : Comp.dlv ∈ ks) (h4 : Comp.gates ∈ ks) (h5 : Comp.twin ∈ ks) (h6 : Comp.tly ∈ ks) (h7 :
    Comp.ctr ∈ ks) (h8 : Comp.log ∈ ks) : blank ks (freeOutst ch tag s) = blank ks s := by
  simp [freeOutst, *]

@[simp] theorem blank_copyDone (e no : Nat) (s : State) (h0 : Comp.log ∈ ks) : blank ks (copyDone e no s) = blank ks s
    := by
  unfold copyDone
  repeat' first
    | with_reducible rfl
    | (simp [*]; done)
    | split
    | (refine (blank_foldl (fun _ _ => ?_) _ _).trans ?_)
    | dsimp only
    | simp [*]

@[simp] theorem blank_markTarget (t : WTarget) (s : State) (h0 : Comp.slc ∈ ks) (h1 : Comp.dlv ∈ ks) (h2 : Comp.twin ∈
    ks) (h3 : Comp.tly ∈ ks) (h4 : Comp.ctr ∈ ks) (h5 : Comp.log ∈ ks) : blank ks (markTarget t s) = blank ks s := by
  simp [markTarget, *]

@[simp] theorem blank_writeFailed (w : Outst) (ch : Nat) (tag : BitVec 12) (status : BitVec 3) (timeout : Bool) (s :
    State) (hw : Wide ks) : blank ks (writeFailed w ch tag status timeout s) = blank ks s := by
  simp [writeFailed, *]

@[simp] theorem blank_completed (ch : Nat) (cpl : BitVec 16) (w : Outst) (s : State) (hw : Wide ks) : blank ks
    (completed ch cpl w s) = blank ks s := by
  unfold completed
  repeat' first
    | with_reducible rfl
    | (simp [*]; done)
    | split
    | (refine (blank_foldl (fun _ _ => ?_) _ _).trans ?_)
    | dsimp only
    | simp [*]

@[simp] theorem blank_cplBad (s : State) (h0 : Comp.ctr ∈ ks) : blank ks (cplBad s) = blank ks s := by
  simp [cplBad, *]

@[simp] theorem blank_doWchCompletion (ch : Nat) (cpl : BitVec 16) (s : State) (hw : Wide ks) : blank ks
    (doWchCompletion ch cpl s) = blank ks s := by
  unfold doWchCompletion
  repeat' first
    | with_reducible rfl
    | (simp [*]; done)
    | split
    | (refine (blank_foldl (fun _ _ => ?_) _ _).trans ?_)
    | dsimp only
    | simp [*]

@[simp] theorem blank_doWriteTimeout (ch : Nat) (tag : BitVec 12) (s : State) (hw : Wide ks) : blank ks
    (doWriteTimeout ch tag s) = blank ks s := by
  unfold doWriteTimeout
  repeat' first
    | with_reducible rfl
    | (simp [*]; done)
    | split
    | (refine (blank_foldl (fun _ _ => ?_) _ _).trans ?_)
    | dsimp only
    | simp [*]

end Sys2Proof.Machine
end

