-- ==== Sys2Proof/Laws/FramePacer.lean ====
section
/-! SUPPORT. Frames of the operations of Machine/Pacer.lean (see Frame.lean). -/

namespace Sys2Proof.Machine

open Sys2Proof.Safety

variable {ks : List Comp}

theorem blank_fillHalves (f : Nat → Nat) (l : List Nat) (p : Nat × State) (h0 : Comp.dlv ∈ ks) :
    blank ks (l.foldl (fun p r => fillHalf r (f r) p) p).2 = blank ks p.2 := by
  induction l generalizing p with
  | nil => rfl
  | cons r rest ih => rw [List.foldl_cons, ih]; exact blank_setBucket _ _ _ h0

@[simp] theorem blank_fillBuckets (ns : Nat) (s : State) (h0 : Comp.dlv ∈ ks) : blank ks (fillBuckets ns s) = blank ks
    s := by
  unfold fillBuckets
  simp [h0, blank_fillHalves]

@[simp] theorem blank_fullBuckets (s : State) (h0 : Comp.dlv ∈ ks) : blank ks (fullBuckets s) = blank ks s := by
  simp [fullBuckets, *]

@[simp] theorem blank_putTicket (t : Nat) (w : Ticket) (s : State) (h0 : Comp.dlv ∈ ks) (h1 : Comp.tly ∈ ks) : blank
    ks (putTicket t w s) = blank ks s := by
  simp [putTicket, *]

@[simp] theorem blank_minuteTicket (b : BitVec 64) (t : Nat) (s : State) (h0 : Comp.dlv ∈ ks) (h1 : Comp.link ∈ ks)
    (h2 : Comp.tly ∈ ks) (h3 : Comp.ctr ∈ ks) : blank ks (minuteTicket b t s) = blank ks s := by
  simp [minuteTicket, *]

@[simp] theorem blank_writeCkpt (t : Nat) (s : State) (h0 : Comp.dlv ∈ ks) (h1 : Comp.twin ∈ ks) (h2 : Comp.tly ∈ ks)
    : blank ks (writeCkpt t s) = blank ks s := by
  unfold writeCkpt
  repeat' first
    | with_reducible rfl
    | (simp [*]; done)
    | split
    | (refine (blank_foldl (fun _ _ => ?_) _ _).trans ?_)
    | dsimp only
    | simp [*]

@[simp] theorem blank_writeCkpts (s : State) (h0 : Comp.dlv ∈ ks) (h1 : Comp.twin ∈ ks) (h2 : Comp.tly ∈ ks) : blank
    ks (writeCkpts s) = blank ks s := by
  simp [writeCkpts, *]

@[simp] theorem blank_minuteTickets (b : BitVec 64) (s : State) (h0 : Comp.dlv ∈ ks) (h1 : Comp.twin ∈ ks) (h2 :
    Comp.link ∈ ks) (h3 : Comp.tly ∈ ks) (h4 : Comp.ctr ∈ ks) : blank ks (minuteTickets b s) = blank ks s := by
  simp [minuteTickets, *]

@[simp] theorem blank_snapshot (s : State) (h0 : Comp.dlv ∈ ks) (h1 : Comp.ctr ∈ ks) : blank ks (snapshot s) = blank
    ks s := by
  simp [snapshot, *]

end Sys2Proof.Machine
end

