-- ==== Sys2Proof/Laws/FrameTime.lean ====
section
/-! SUPPORT. Frames of the operations of Machine/Time.lean (see Frame.lean). -/

namespace Sys2Proof.Machine

open Sys2Proof.Safety

variable {ks : List Comp}

@[simp] theorem blank_countMicros (old new : BitVec 64) (s : State) (h0 : Comp.ctr ∈ ks) : blank ks (countMicros old
    new s) = blank ks s := by
  simp [countMicros, *]

@[simp] theorem blank_countStarved (ns : Nat) (s : State) (h0 : Comp.dlv ∈ ks) : blank ks (countStarved ns s) = blank
    ks s := by
  simp [countStarved, *]

@[simp] theorem blank_noteMinute (old v : BitVec 64) (s : State) (h0 : Comp.tly ∈ ks) : blank ks (noteMinute old v s)
    = blank ks s := by
  simp [noteMinute, *]

@[simp] theorem blank_endStall (s : State) (h0 : Comp.dlv ∈ ks) : blank ks (endStall s) = blank ks s := by
  simp [endStall, *]

@[simp] theorem blank_markInbox (s : State) (h0 : Comp.relay ∈ ks) : blank ks (markInbox s) = blank ks s := by
  simp [markInbox, *]

@[simp] theorem blank_acceptTime (v : BitVec 64) (s : State) (h0 : Comp.glb ∈ ks) (h1 : Comp.dlv ∈ ks) (h2 :
    Comp.relay ∈ ks) (h3 : Comp.tly ∈ ks) (h4 : Comp.ctr ∈ ks) : blank ks (acceptTime v s) = blank ks s := by
  simp [acceptTime, *]

@[simp] theorem blank_doTimePortValue (v : BitVec 64) (p : BitVec 4) (s : State) (hw : Wide ks) : blank ks
    (doTimePortValue v p s) = blank ks s := by
  simp [doTimePortValue, *]

@[simp] theorem blank_doTimeStall (s : State) (h0 : Comp.glb ∈ ks) (h1 : Comp.slc ∈ ks) (h2 : Comp.dlv ∈ ks) (h3 :
    Comp.log ∈ ks) : blank ks (doTimeStall s) = blank ks s := by
  simp [doTimeStall, *]

@[simp] theorem blank_doSoakEnd (g : Nat) (s : State) (h0 : Comp.slc ∈ ks) (h1 : Comp.dlv ∈ ks) : blank ks (doSoakEnd
    g s) = blank ks s := by
  simp [doSoakEnd, *]

@[simp] theorem blank_beginShort (s : State) (h0 : Comp.dlv ∈ ks) (h1 : Comp.ctr ∈ ks) (h2 : Comp.log ∈ ks) : blank ks
    (beginShort s) = blank ks s := by
  simp [beginShort, *]

@[simp] theorem blank_doPacerPeriodEnd (u : List (BitVec 32)) (s : State) (h0 : Comp.dlv ∈ ks) (h1 : Comp.ctr ∈ ks)
    (h2 : Comp.log ∈ ks) : blank ks (doPacerPeriodEnd u s) = blank ks s := by
  simp [doPacerPeriodEnd, *]

@[simp] theorem blank_doMinuteBoundary (s : State) (h0 : Comp.dlv ∈ ks) (h1 : Comp.twin ∈ ks) (h2 : Comp.link ∈ ks)
    (h3 : Comp.tly ∈ ks) (h4 : Comp.ctr ∈ ks) : blank ks (doMinuteBoundary s) = blank ks s := by
  unfold doMinuteBoundary
  repeat' first
    | with_reducible rfl
    | (simp [*]; done)
    | split
    | (refine (blank_foldl (fun _ _ => ?_) _ _).trans ?_)
    | dsimp only
    | simp [*]

@[simp] theorem blank_doCounterSnapshotCapture (s : State) (h0 : Comp.dlv ∈ ks) (h1 : Comp.ctr ∈ ks) : blank ks
    (doCounterSnapshotCapture s) = blank ks s := by
  simp [doCounterSnapshotCapture, *]

@[simp] theorem blank_breakTack (n : Nat) (cause : BitVec 2) (s : State) (h0 : Comp.tack ∈ ks) : blank ks (breakTack n
    cause s) = blank ks s := by
  simp [breakTack, *]

@[simp] theorem blank_doTackLeaseExpiry (n : Nat) (s : State) (h0 : Comp.tack ∈ ks) : blank ks (doTackLeaseExpiry n s)
    = blank ks s := by
  unfold doTackLeaseExpiry
  repeat' first
    | with_reducible rfl
    | (simp [*]; done)
    | split
    | (refine (blank_foldl (fun _ _ => ?_) _ _).trans ?_)
    | dsimp only
    | simp [*]

@[simp] theorem blank_gateOff (d : Nat) (s : State) (h0 : Comp.pwr ∈ ks) : blank ks (gateOff d s) = blank ks s := by
  simp [gateOff, *]

@[simp] theorem blank_doDipIdleGate (n : Nat) (s : State) (h0 : Comp.pwr ∈ ks) : blank ks (doDipIdleGate n s) = blank
    ks s := by
  simp [doDipIdleGate, *]

@[simp] theorem blank_doCryIdleRelease (s : State) (h0 : Comp.pwr ∈ ks) : blank ks (doCryIdleRelease s) = blank ks s
    := by
  simp [doCryIdleRelease, *]

end Sys2Proof.Machine
end

