-- ==== Sys2Proof/Laws/FrameSeamOps.lean ====
section
/-! SUPPORT. Frames of the operations of Machine/SeamOps.lean (see Frame.lean). -/

namespace Sys2Proof.Machine

open Sys2Proof.Safety

variable {ks : List Comp}

@[simp] theorem blank_linkCE (k : ErrKind) (l : Seam) (s : State) (h0 : Comp.log ∈ ks) : blank ks (linkCE k l s) =
    blank ks s := by
  simp [linkCE, *]

@[simp] theorem blank_setLk (l : Seam) (v : Link) (s : State) (h0 : Comp.link ∈ ks) : blank ks (setLk l v s) = blank
    ks s := by
  simp [setLk, *]

@[simp] theorem blank_queueCtl (l : Seam) (p : BitVec 960) (s : State) (h0 : Comp.link ∈ ks) : blank ks (queueCtl l p
    s) = blank ks s := by
  simp [queueCtl, *]

@[simp] theorem blank_dealQuarters (f : BitVec 1024) (fuel : Nat) (s : State) (x : List (Nat × BitVec 272)) (h0 :
    Comp.twin ∈ ks) : blank ks (dealQuarters f fuel s x).2 = blank ks s := by
  induction fuel generalizing s x with
  | zero => rfl
  | succ n ih =>
    unfold dealQuarters
    repeat' first
      | with_reducible rfl
      | (simp [*]; done)
      | split
      | dsimp only
      | simp [*]

@[simp] theorem blank_sendRound (words : List (Nat × BitVec 272)) (s : State) (h0 : Comp.out ∈ ks) (h1 : Comp.twin ∈
    ks) : blank ks (sendRound words s) = blank ks s := by
  simp [sendRound, *]

@[simp] theorem blank_changeLanes (set : Byte) (s : State) (h0 : Comp.twin ∈ ks) : blank ks (changeLanes set s) =
    blank ks s := by
  simp [changeLanes, *]

@[simp] theorem blank_switchLanes (s : State) (h0 : Comp.out ∈ ks) (h1 : Comp.twin ∈ ks) : blank ks (switchLanes s) =
    blank ks s := by
  unfold switchLanes
  repeat' first
    | with_reducible rfl
    | (simp [*]; done)
    | split
    | (refine (blank_foldl (fun _ _ => ?_) _ _).trans ?_)
    | dsimp only
    | simp [*]

@[simp] theorem blank_heldOut (n : Nat) (s : State) (h0 : Comp.twin ∈ ks) : blank ks (heldOut n s) = blank ks s := by
  unfold heldOut
  repeat' first
    | with_reducible rfl
    | (simp [*]; done)
    | split
    | (refine (blank_foldl (fun _ _ => ?_) _ _).trans ?_)
    | dsimp only
    | simp [*]

@[simp] theorem blank_dropLane (n : Nat) (s : State) (h0 : Comp.twin ∈ ks) (h1 : Comp.link ∈ ks) (h2 : Comp.ctr ∈ ks)
    (h3 : Comp.log ∈ ks) : blank ks (dropLane n s) = blank ks s := by
  simp [dropLane, *]

@[simp] theorem blank_setLaneCfg (v : BitVec 24) (s : State) (h0 : Comp.twin ∈ ks) (h1 : Comp.link ∈ ks) (h2 :
    Comp.ctr ∈ ks) (h3 : Comp.log ∈ ks) : blank ks (setLaneCfg v s) = blank ks s := by
  simp [setLaneCfg, *]

@[simp] theorem blank_putFlit (l : Seam) (f : BitVec 1024) (s : State) (h0 : Comp.out ∈ ks) (h1 : Comp.twin ∈ ks) (h2
    : Comp.ctr ∈ ks) : blank ks (putFlit l f s) = blank ks s := by
  unfold putFlit
  repeat' first
    | with_reducible rfl
    | (simp [*]; done)
    | split
    | (refine (blank_foldl (fun _ _ => ?_) _ _).trans ?_)
    | dsimp only
    | simp [*]

@[simp] theorem blank_sendFlit (l : Seam) (typ : BitVec 2) (rsp : Bool) (p : BitVec 960) (pre : BitVec 16) (s : State)
    (h0 : Comp.out ∈ ks) (h1 : Comp.twin ∈ ks) (h2 : Comp.link ∈ ks) (h3 : Comp.ctr ∈ ks) : blank ks (sendFlit l typ
    rsp p pre s) = blank ks s := by
  simp [sendFlit, *]

@[simp] theorem blank_sendSeq (l : Seam) (rsp : Bool) (p : BitVec 960) (s : State) (h0 : Comp.out ∈ ks) (h1 :
    Comp.twin ∈ ks) (h2 : Comp.link ∈ ks) (h3 : Comp.ctr ∈ ks) : blank ks (sendSeq l rsp p s) = blank ks s := by
  simp [sendSeq, *]

@[simp] theorem blank_resendFlit (l : Seam) (f : RepFlit) (s : State) (h0 : Comp.out ∈ ks) (h1 : Comp.twin ∈ ks) (h2 :
    Comp.link ∈ ks) (h3 : Comp.ctr ∈ ks) : blank ks (resendFlit l f s) = blank ks s := by
  unfold resendFlit
  repeat' first
    | with_reducible rfl
    | (simp [*]; done)
    | split
    | (refine (blank_foldl (fun _ _ => ?_) _ _).trans ?_)
    | dsimp only
    | simp [*]

@[simp] theorem blank_sendReplay (l : Seam) (f : RepFlit) (s : State) (h0 : Comp.out ∈ ks) (h1 : Comp.twin ∈ ks) (h2 :
    Comp.link ∈ ks) (h3 : Comp.ctr ∈ ks) : blank ks (sendReplay l f s) = blank ks s := by
  simp [sendReplay, *]

@[simp] theorem blank_takeRx (l : Seam) (rsp fw : Bool) (s : State) (h0 : Comp.link ∈ ks) : blank ks (takeRx l rsp fw
    s) = blank ks s := by
  unfold takeRx
  repeat' first
    | with_reducible rfl
    | (simp [*]; done)
    | split
    | (refine (blank_foldl (fun _ _ => ?_) _ _).trans ?_)
    | dsimp only
    | simp [*]

@[simp] theorem blank_noteRinse (l : Seam) (s : State) (h0 : Comp.ctr ∈ ks) (h1 : Comp.log ∈ ks) : blank ks (noteRinse
    l s) = blank ks s := by
  simp [noteRinse, *]

@[simp] theorem blank_startLanes (l : Seam) (s : State) (h0 : Comp.twin ∈ ks) : blank ks (startLanes l s) = blank ks s
    := by
  unfold startLanes
  repeat' first
    | with_reducible rfl
    | (simp [*]; done)
    | split
    | (refine (blank_foldl (fun _ _ => ?_) _ _).trans ?_)
    | dsimp only
    | simp [*]

@[simp] theorem blank_startRetrain (l : Seam) (s : State) (h0 : Comp.twin ∈ ks) (h1 : Comp.link ∈ ks) (h2 : Comp.ctr ∈
    ks) (h3 : Comp.log ∈ ks) : blank ks (startRetrain l s) = blank ks s := by
  simp [startRetrain, *]

@[simp] theorem blank_retrainIfDue (l : Seam) (s : State) (h0 : Comp.twin ∈ ks) (h1 : Comp.link ∈ ks) (h2 : Comp.ctr ∈
    ks) (h3 : Comp.log ∈ ks) : blank ks (retrainIfDue l s) = blank ks s := by
  unfold retrainIfDue
  repeat' first
    | with_reducible rfl
    | (simp [*]; done)
    | split
    | (refine (blank_foldl (fun _ _ => ?_) _ _).trans ?_)
    | dsimp only
    | simp [*]

@[simp] theorem blank_startTraining (l : Seam) (s : State) (h0 : Comp.twin ∈ ks) (h1 : Comp.link ∈ ks) : blank ks
    (startTraining l s) = blank ks s := by
  simp [startTraining, *]

@[simp] theorem blank_trainTwin (s : State) (h0 : Comp.twin ∈ ks) (h1 : Comp.link ∈ ks) : blank ks (trainTwin s) =
    blank ks s := by
  simp [trainTwin, *]

end Sys2Proof.Machine
end

