-- ==== Sys2Proof/Laws/FrameTwinOps.lean ====
section
/-! SUPPORT. Frames of the operations of Machine/TwinOps.lean (see Frame.lean). -/

namespace Sys2Proof.Machine

open Sys2Proof.Safety

variable {ks : List Comp}

@[simp] theorem blank_flipRun (c : CommitRun) (s : State) (hw : Wide ks) : blank ks (flipRun c s) = blank ks s := by
  unfold flipRun
  repeat' first
    | with_reducible rfl
    | (simp [*]; done)
    | split
    | (refine (blank_foldl (fun _ _ => ?_) _ _).trans ?_)
    | dsimp only
    | simp [*]

@[simp] theorem blank_answerRun (c : CommitRun) (s : State) (h0 : Comp.freeCtr ∈ ks) (h1 : Comp.pwr ∈ ks) (h2 :
    Comp.intake ∈ ks) (h3 : Comp.mbx ∈ ks) (h4 : Comp.fw ∈ ks) (h5 : Comp.ctr ∈ ks) : blank ks (answerRun c s) = blank
    ks s := by
  unfold answerRun
  repeat' first
    | with_reducible rfl
    | (simp [*]; done)
    | split
    | (refine (blank_foldl (fun _ _ => ?_) _ _).trans ?_)
    | dsimp only
    | simp [*]

@[simp] theorem blank_failRun (c : CommitRun) (status : Byte) (s : State) (h0 : Comp.freeCtr ∈ ks) (h1 : Comp.pwr ∈
    ks) (h2 : Comp.intake ∈ ks) (h3 : Comp.mbx ∈ ks) (h4 : Comp.tenant ∈ ks) (h5 : Comp.fw ∈ ks) (h6 : Comp.ctr ∈ ks)
    : blank ks (failRun c status s) = blank ks s := by
  unfold failRun
  repeat' first
    | with_reducible rfl
    | (simp [*]; done)
    | split
    | (refine (blank_foldl (fun _ _ => ?_) _ _).trans ?_)
    | dsimp only
    | simp [*]

@[simp] theorem blank_noVote (c : CommitRun) (s : State) (h0 : Comp.out ∈ ks) (h1 : Comp.freeCtr ∈ ks) (h2 : Comp.pwr
    ∈ ks) (h3 : Comp.intake ∈ ks) (h4 : Comp.mbx ∈ ks) (h5 : Comp.tenant ∈ ks) (h6 : Comp.fw ∈ ks) (h7 : Comp.twin ∈
    ks) (h8 : Comp.ctr ∈ ks) : blank ks (noVote c s) = blank ks s := by
  simp [noVote, *]

@[simp] theorem blank_runSolo (s : State) (h0 : Comp.twin ∈ ks) : blank ks (runSolo s) = blank ks s := by
  unfold runSolo
  repeat' first
    | with_reducible rfl
    | (simp [*]; done)
    | split
    | (refine (blank_foldl (fun _ _ => ?_) _ _).trans ?_)
    | dsimp only
    | simp [*]

@[simp] theorem blank_renewed (c : CommitRun) (s : State) (hw : Wide ks) : blank ks (renewed c s) = blank ks s := by
  simp [renewed, *]

@[simp] theorem blank_lossRun (s : State) (h0 : Comp.out ∈ ks) (h1 : Comp.freeCtr ∈ ks) (h2 : Comp.pwr ∈ ks) (h3 :
    Comp.intake ∈ ks) (h4 : Comp.mbx ∈ ks) (h5 : Comp.tenant ∈ ks) (h6 : Comp.fw ∈ ks) (h7 : Comp.twin ∈ ks) (h8 :
    Comp.ctr ∈ ks) : blank ks (lossRun s) = blank ks s := by
  unfold lossRun
  repeat' first
    | with_reducible rfl
    | (simp [*]; done)
    | split
    | (refine (blank_foldl (fun _ _ => ?_) _ _).trans ?_)
    | dsimp only
    | simp [*]

@[simp] theorem blank_endAsks (s : State) (h0 : Comp.freeCtr ∈ ks) (h1 : Comp.pwr ∈ ks) (h2 : Comp.intake ∈ ks) (h3 :
    Comp.mbx ∈ ks) (h4 : Comp.fw ∈ ks) (h5 : Comp.ctr ∈ ks) : blank ks (endAsks s) = blank ks s := by
  unfold endAsks
  repeat' first
    | with_reducible rfl
    | (simp [*]; done)
    | split
    | (refine (blank_foldl (fun _ _ => ?_) _ _).trans ?_)
    | dsimp only
    | simp [*]

@[simp] theorem blank_flipPrepared (p : Prepared) (s : State) (hw : Wide ks) : blank ks (flipPrepared p s) = blank ks
    s := by
  simp [flipPrepared, *]

@[simp] theorem blank_presume (s : State) (hw : Wide ks) : blank ks (presume s) = blank ks s := by
  unfold presume
  repeat' first
    | with_reducible rfl
    | (simp [*]; done)
    | split
    | (refine (blank_foldl (fun _ _ => ?_) _ _).trans ?_)
    | dsimp only
    | simp [*]

@[simp] theorem blank_endRewashCmd (status : Byte) (s : State) (h0 : Comp.freeCtr ∈ ks) (h1 : Comp.pwr ∈ ks) (h2 :
    Comp.intake ∈ ks) (h3 : Comp.mbx ∈ ks) (h4 : Comp.ctr ∈ ks) : blank ks (endRewashCmd status s) = blank ks s := by
  unfold endRewashCmd
  repeat' first
    | with_reducible rfl
    | (simp [*]; done)
    | split
    | (refine (blank_foldl (fun _ _ => ?_) _ _).trans ?_)
    | dsimp only
    | simp [*]

@[simp] theorem blank_partnerLost (s : State) (h0 : Comp.out ∈ ks) (h1 : Comp.freeCtr ∈ ks) (h2 : Comp.pwr ∈ ks) (h3 :
    Comp.intake ∈ ks) (h4 : Comp.mbx ∈ ks) (h5 : Comp.tenant ∈ ks) (h6 : Comp.fw ∈ ks) (h7 : Comp.twin ∈ ks) (h8 :
    Comp.ctr ∈ ks) : blank ks (partnerLost s) = blank ks s := by
  simp [partnerLost, *]

@[simp] theorem blank_takeoverEv (k : Nat) (s : State) (h0 : Comp.slc ∈ ks) (h1 : Comp.ctr ∈ ks) : blank ks
    (takeoverEv k s).1 = blank ks s := by
  simp [takeoverEv, *]

@[simp] theorem blank_takeoverFold (k : Nat) (s : State) (h0 : Comp.slc ∈ ks) : blank ks (takeoverFold k s) = blank ks
    s := by
  unfold takeoverFold
  repeat' first
    | with_reducible rfl
    | (simp [*]; done)
    | split
    | (refine (blank_foldl (fun _ _ => ?_) _ _).trans ?_)
    | dsimp only
    | simp [*]

@[simp] theorem blank_takeoverApply (k : Nat) (s0 : State) (h0 : Comp.slc ∈ ks) (h1 : Comp.twin ∈ ks) (h2 : Comp.ctr ∈
    ks) : blank ks (takeoverApply k s0) = blank ks s0 := by
  unfold takeoverApply
  repeat' first
    | with_reducible rfl
    | (simp [*]; done)
    | split
    | (refine (blank_foldl (fun _ _ => ?_) _ _).trans ?_)
    | dsimp only
    | simp [*]

@[simp] theorem blank_enterRewash (s : State) (h0 : Comp.twin ∈ ks) : blank ks (enterRewash s) = blank ks s := by
  simp [enterRewash, *]

@[simp] theorem blank_startRewash (m : Option Mbx) (s : State) (h0 : Comp.twin ∈ ks) (h1 : Comp.link ∈ ks) : blank ks
    (startRewash m s) = blank ks s := by
  simp [startRewash, *]

@[simp] theorem blank_reunite (s : State) (h0 : Comp.twin ∈ ks) : blank ks (reunite s) = blank ks s := by
  unfold reunite
  repeat' first
    | with_reducible rfl
    | (simp [*]; done)
    | split
    | (refine (blank_foldl (fun _ _ => ?_) _ _).trans ?_)
    | dsimp only
    | simp [*]

@[simp] theorem blank_heartbeatIn (h : Heartbeat) (s : State) (h0 : Comp.out ∈ ks) (h1 : Comp.freeCtr ∈ ks) (h2 :
    Comp.pwr ∈ ks) (h3 : Comp.intake ∈ ks) (h4 : Comp.mbx ∈ ks) (h5 : Comp.tenant ∈ ks) (h6 : Comp.fw ∈ ks) (h7 :
    Comp.twin ∈ ks) (h8 : Comp.ctr ∈ ks) : blank ks (heartbeatIn h s) = blank ks s := by
  simp [heartbeatIn, *]

@[simp] theorem blank_sendEntries (other : RewashInfo) (s : State) (h0 : Comp.link ∈ ks) : blank ks (sendEntries other
    s) = blank ks s := by
  simp [sendEntries, *]

@[simp] theorem blank_startSnapshots (s : State) (h0 : Comp.twin ∈ ks) : blank ks (startSnapshots s) = blank ks s :=
    by
  simp [startSnapshots, *]

@[simp] theorem blank_pairUp (r : RewashRun) (s : State) (h0 : Comp.freeCtr ∈ ks) (h1 : Comp.pwr ∈ ks) (h2 :
    Comp.intake ∈ ks) (h3 : Comp.mbx ∈ ks) (h4 : Comp.tenant ∈ ks) (h5 : Comp.twin ∈ ks) (h6 : Comp.ctr ∈ ks) : blank
    ks (pairUp r s) = blank ks s := by
  unfold pairUp
  repeat' first
    | with_reducible rfl
    | (simp [*]; done)
    | split
    | (refine (blank_foldl (fun _ _ => ?_) _ _).trans ?_)
    | dsimp only
    | simp [*]

@[simp] theorem blank_releaseLease (s : State) (h0 : Comp.out ∈ ks) (h1 : Comp.freeCtr ∈ ks) (h2 : Comp.twin ∈ ks) (h3
    : Comp.ctr ∈ ks) : blank ks (releaseLease s) = blank ks s := by
  unfold releaseLease
  repeat' first
    | with_reducible rfl
    | (simp [*]; done)
    | split
    | (refine (blank_foldl (fun _ _ => ?_) _ _).trans ?_)
    | dsimp only
    | simp [*]

@[simp] theorem blank_finishRewash (s : State) (h0 : Comp.out ∈ ks) (h1 : Comp.freeCtr ∈ ks) (h2 : Comp.pwr ∈ ks) (h3
    : Comp.intake ∈ ks) (h4 : Comp.mbx ∈ ks) (h5 : Comp.tenant ∈ ks) (h6 : Comp.twin ∈ ks) (h7 : Comp.ctr ∈ ks) :
    blank ks (finishRewash s) = blank ks s := by
  unfold finishRewash
  repeat' first
    | with_reducible rfl
    | (simp [*]; done)
    | split
    | (refine (blank_foldl (fun _ _ => ?_) _ _).trans ?_)
    | dsimp only
    | simp [*]

@[simp] theorem blank_shiftEpochs (d : BitVec 16) (s : State) (h0 : Comp.intake ∈ ks) (h1 : Comp.slc ∈ ks) (h2 :
    Comp.dlv ∈ ks) (h3 : Comp.relay ∈ ks) : blank ks (shiftEpochs d s) = blank ks s := by
  simp [shiftEpochs, *]

@[simp] theorem blank_adoptFlip (x : BitVec 16) (t0 : Txn) (s : State) (hw : Wide ks) : blank ks (adoptFlip x t0 s) =
    blank ks s := by
  simp [adoptFlip, *]

@[simp] theorem blank_dropLease (s : State) (h0 : Comp.twin ∈ ks) : blank ks (dropLease s) = blank ks s := by
  simp [dropLease, *]

@[simp] theorem blank_gotLease (w : BitVec 64) (s : State) (h0 : Comp.twin ∈ ks) : blank ks (gotLease w s) = blank ks
    s := by
  simp [gotLease, *]

@[simp] theorem blank_judgeRead (w : BitVec 64) (s : State) (h0 : Comp.out ∈ ks) (h1 : Comp.freeCtr ∈ ks) (h2 :
    Comp.twin ∈ ks) (h3 : Comp.ctr ∈ ks) : blank ks (judgeRead w s) = blank ks s := by
  simp [judgeRead, *]

end Sys2Proof.Machine
end

