-- ==== Sys2Proof/Laws/FramePower.lean ====
section
/-! SUPPORT. Frames of the operations of Machine/Power.lean (see Frame.lean). -/

namespace Sys2Proof.Machine

open Sys2Proof.Safety

variable {ks : List Comp}

@[simp] theorem blank_doPortResetNotify (p : Nat) (rise : Bool) (s : State) (h0 : Comp.pwr ∈ ks) (h1 : Comp.tack ∈ ks)
    : blank ks (doPortResetNotify p rise s) = blank ks s := by
  simp [doPortResetNotify, *]

@[simp] theorem blank_doDomainPowerOffAck (d : Nat) (s : State) (h0 : Comp.pwr ∈ ks) : blank ks (doDomainPowerOffAck d
    s) = blank ks s := by
  simp [doDomainPowerOffAck, *]

@[simp] theorem blank_doPwrTimeout (d : Nat) (s : State) (hw : Wide ks) : blank ks (doPwrTimeout d s) = blank ks s :=
    by
  simp [doPwrTimeout, *]

@[simp] theorem blank_doAonPowerDown (s : State) (h0 : Comp.pwr ∈ ks) : blank ks (doAonPowerDown s) = blank ks s := by
  simp [doAonPowerDown, *]

theorem blank_doColdStart (s : State) (hw : Wide ks) (ht : Comp.tack ∈ ks) : blank ks (doColdStart s) = blank ks s := by
  simp [doColdStart, blank, hw, ht]

@[simp] theorem blank_bootPower (s : State) (h0 : Comp.pwr ∈ ks) : blank ks (bootPower s) = blank ks s := by
  simp [bootPower, *]

@[simp] theorem blank_coldInit (x : Straps) (s : State) (h0 : Comp.pwr ∈ ks) (h1 : Comp.dlv ∈ ks) (h2 : Comp.twin ∈
    ks) : blank ks (coldInit x s) = blank ks s := by
  simp [coldInit, *]

@[simp] theorem blank_breakAll (s : State) (h0 : Comp.tack ∈ ks) : blank ks (breakAll s) = blank ks s := by
  simp [breakAll, *]

@[simp] theorem blank_holdReset (cut brown : Bool) (s : State) (h0 : Comp.pwr ∈ ks) (h1 : Comp.twin ∈ ks) : blank ks
    (holdReset cut brown s) = blank ks s := by
  simp [holdReset, *]

@[simp] theorem blank_doBrownOut (s : State) (h0 : Comp.pwr ∈ ks) (h1 : Comp.twin ∈ ks) (h2 : Comp.tack ∈ ks) : blank
    ks (doBrownOut s) = blank ks s := by
  unfold doBrownOut
  repeat' first
    | with_reducible rfl
    | (simp [*]; done)
    | split
    | (refine (blank_foldl (fun _ _ => ?_) _ _).trans ?_)
    | dsimp only
    | simp [*]

@[simp] theorem blank_doWarmResetEntry (s : State) (h0 : Comp.pwr ∈ ks) (h1 : Comp.tack ∈ ks) : blank ks
    (doWarmResetEntry s) = blank ks s := by
  simp [doWarmResetEntry, *]

@[simp] theorem blank_drainFolder (dip : Nat) (s : State) (h0 : Comp.pwr ∈ ks) (h1 : Comp.intake ∈ ks) : blank ks
    (drainFolder dip s) = blank ks s := by
  unfold drainFolder
  repeat' first
    | with_reducible rfl
    | (simp [*]; done)
    | split
    | (refine (blank_foldl (fun _ _ => ?_) _ _).trans ?_)
    | dsimp only
    | simp [*]

@[simp] theorem blank_drainFolders (s : State) (h0 : Comp.pwr ∈ ks) (h1 : Comp.intake ∈ ks) : blank ks (drainFolders
    s) = blank ks s := by
  simp [drainFolders, *]

@[simp] theorem blank_drainWired (s : State) (h0 : Comp.pwr ∈ ks) (h1 : Comp.intake ∈ ks) (h2 : Comp.ctr ∈ ks) : blank
    ks (drainWired s) = blank ks s := by
  unfold drainWired
  repeat' first
    | with_reducible rfl
    | (simp [*]; done)
    | split
    | (refine (blank_foldl (fun _ _ => ?_) _ _).trans ?_)
    | dsimp only
    | simp [*]

@[simp] theorem blank_drainQueue (q : Nat) (s : State) (h0 : Comp.intake ∈ ks) (h1 : Comp.slc ∈ ks) (h2 : Comp.gates ∈
    ks) (h3 : Comp.mbx ∈ ks) (h4 : Comp.twin ∈ ks) (h5 : Comp.tly ∈ ks) (h6 : Comp.ctr ∈ ks) (h7 : Comp.log ∈ ks) :
    blank ks (drainQueue q s) = blank ks s := by
  simp [drainQueue, *]

@[simp] theorem blank_drainIntake (s : State) (h0 : Comp.pwr ∈ ks) (h1 : Comp.intake ∈ ks) (h2 : Comp.slc ∈ ks) (h3 :
    Comp.gates ∈ ks) (h4 : Comp.mbx ∈ ks) (h5 : Comp.twin ∈ ks) (h6 : Comp.tly ∈ ks) (h7 : Comp.ctr ∈ ks) (h8 :
    Comp.log ∈ ks) : blank ks (drainIntake s) = blank ks s := by
  unfold drainIntake
  repeat' first
    | with_reducible rfl
    | (simp [*]; done)
    | split
    | (refine (blank_foldl (fun _ _ => ?_) _ _).trans ?_)
    | dsimp only
    | simp [*]

@[simp] theorem blank_launchAll (c : Nat) (fuel : Nat) (s : State) (hw : Wide ks) : blank ks (launchAll c fuel s) =
    blank ks s := by
  induction fuel generalizing s with
  | zero => rfl
  | succ n ih =>
    unfold launchAll
    repeat' first
      | with_reducible rfl
      | (simp [*]; done)
      | split
      | dsimp only
      | simp [*]

@[simp] theorem blank_drainGrants (s : State) (hw : Wide ks) : blank ks (drainGrants s) = blank ks s := by
  simp [drainGrants, *]

@[simp] theorem blank_formCopy (s : State) (h0 : Comp.dlv ∈ ks) (h1 : Comp.log ∈ ks) : blank ks (formCopy s) = blank
    ks s := by
  unfold formCopy
  repeat' first
    | with_reducible rfl
    | (simp [*]; done)
    | split
    | (refine (blank_foldl (fun _ _ => ?_) _ _).trans ?_)
    | dsimp only
    | simp [*]

@[simp] theorem blank_drainCopies (s : State) (h0 : Comp.out ∈ ks) (h1 : Comp.freeCtr ∈ ks) (h2 : Comp.slc ∈ ks) (h3 :
    Comp.dlv ∈ ks) (h4 : Comp.gates ∈ ks) (h5 : Comp.twin ∈ ks) (h6 : Comp.tly ∈ ks) (h7 : Comp.ctr ∈ ks) (h8 :
    Comp.log ∈ ks) : blank ks (drainCopies s) = blank ks s := by
  unfold drainCopies
  repeat' first
    | with_reducible rfl
    | (simp [*]; done)
    | split
    | (refine (blank_foldl (fun _ _ => ?_) _ _).trans ?_)
    | dsimp only
    | simp [*]

@[simp] theorem blank_doWarmDrainComplete (cut : Bool) (s : State) (hw : Wide ks) : blank ks (doWarmDrainComplete cut
    s) = blank ks s := by
  simp [doWarmDrainComplete, *]

@[simp] theorem blank_relayedBack (s : State) (h0 : Comp.intake ∈ ks) (h1 : Comp.slc ∈ ks) (h2 : Comp.dlv ∈ ks) (h3 :
    Comp.twin ∈ ks) (h4 : Comp.relay ∈ ks) (h5 : Comp.tly ∈ ks) (h6 : Comp.ctr ∈ ks) : blank ks (relayedBack s) =
    blank ks s := by
  simp [relayedBack, *]

@[simp] theorem blank_emptyQueues (s : State) (h0 : Comp.intake ∈ ks) (h1 : Comp.dlv ∈ ks) : blank ks (emptyQueues s)
    = blank ks s := by
  simp [emptyQueues, *]

@[simp] theorem blank_releaseSource (k : Nat) (s : State) (h0 : Comp.slc ∈ ks) (h1 : Comp.twin ∈ ks) (h2 : Comp.tly ∈
    ks) (h3 : Comp.ctr ∈ ks) : blank ks (releaseSource k s) = blank ks s := by
  simp [releaseSource, *]

@[simp] theorem blank_releaseHalf (r : Nat) (s : State) (h0 : Comp.dlv ∈ ks) : blank ks (releaseHalf r s) = blank ks s
    := by
  simp [releaseHalf, *]

@[simp] theorem blank_releaseScan (s : State) (h0 : Comp.glb ∈ ks) (h1 : Comp.slc ∈ ks) (h2 : Comp.ctr ∈ ks) : blank
    ks (releaseScan s) = blank ks s := by
  simp [releaseScan, *]

@[simp] theorem blank_releaseProfile (s : State) (h0 : Comp.pwr ∈ ks) (h1 : Comp.glb ∈ ks) (h2 : Comp.slc ∈ ks) (h3 :
    Comp.dlv ∈ ks) (h4 : Comp.ctr ∈ ks) : blank ks (releaseProfile s) = blank ks s := by
  simp [releaseProfile, *]

@[simp] theorem blank_rinseSessions (l : Tbl Link) (s : State) (h0 : Comp.ctr ∈ ks) (h1 : Comp.log ∈ ks) : blank ks
    (rinseSessions l s) = blank ks s := by
  unfold rinseSessions
  repeat' first
    | with_reducible rfl
    | (simp [*]; done)
    | split
    | (refine (blank_foldl (fun _ _ => ?_) _ _).trans ?_)
    | dsimp only
    | simp [*]

@[simp] theorem blank_restartFw (s : State) (h0 : Comp.pwr ∈ ks) (h1 : Comp.intake ∈ ks) (h2 : Comp.mbx ∈ ks) (h3 :
    Comp.fw ∈ ks) (h4 : Comp.ctr ∈ ks) : blank ks (restartFw s) = blank ks s := by
  simp [restartFw, *]

@[simp] theorem blank_release_ (x : Straps) (last : BitVec 2) (s : State) (hw : Wide ks) : blank ks (release_ x last
    s) = blank ks s := by
  unfold release_
  extract_lets s1 s2 s3 s4 s5 s6 s7 s8
  have h1 : blank ks s1 = blank ks s := by simp [s1, hw]
  have h2 : blank ks s2 = blank ks s := by simp [s2, hw, h1]
  have h3 : blank ks s3 = blank ks s := by simp [s3, hw, h2]
  have h4 : blank ks s4 = blank ks s := (blank_foldl (fun _ _ => by simp [hw]) _ _).trans h3
  have h5 : blank ks s5 = blank ks s := (blank_foldl (fun _ _ => by simp [hw]) _ _).trans h4
  have h6 : blank ks s6 = blank ks s := by simp [s6, hw, h5]
  have h7 : blank ks s7 = blank ks s := by simp [s7, hw, h6]
  have h8 : blank ks s8 = blank ks s := by simp [s8, hw, h7]
  simp [hw, h8]

@[simp] theorem blank_extendImage (img : BitVec 384) (man : BitVec 384) (s : State) (h0 : Comp.fw ∈ ks) : blank ks
    (extendImage img man s) = blank ks s := by
  simp [extendImage, *]

@[simp] theorem blank_countAttempt (s : State) (h0 : Comp.fw ∈ ks) : blank ks (countAttempt s) = blank ks s := by
  simp [countAttempt, *]

@[simp] theorem blank_bootRead (ok : Bool) (kib : Nat) (s : State) (h0 : Comp.out ∈ ks) (h1 : Comp.freeCtr ∈ ks) (h2 :
    Comp.ctr ∈ ks) : blank ks (bootRead ok kib s) = blank ks s := by
  unfold bootRead
  repeat' first
    | with_reducible rfl
    | (simp [*]; done)
    | split
    | (refine (blank_foldl (fun _ _ => ?_) _ _).trans ?_)
    | dsimp only
    | simp [*]

@[simp] theorem blank_doFwBootReady (i : FwImage) (s : State) (h0 : Comp.out ∈ ks) (h1 : Comp.freeCtr ∈ ks) (h2 :
    Comp.fw ∈ ks) (h3 : Comp.ctr ∈ ks) : blank ks (doFwBootReady i s) = blank ks s := by
  unfold doFwBootReady
  split
  · exact (blank_extendImage _ _ _ h2).trans (by simp [*])
  · rfl

@[simp] theorem blank_doFwBootRetry (fetchErr sigBad : Bool) (s : State) (h0 : Comp.out ∈ ks) (h1 : Comp.freeCtr ∈ ks)
    (h2 : Comp.fw ∈ ks) (h3 : Comp.ctr ∈ ks) : blank ks (doFwBootRetry fetchErr sigBad s) = blank ks s := by
  simp [doFwBootRetry, *]

@[simp] theorem blank_doTestModeSelect (on : Bool) (s : State) (h0 : Comp.glb ∈ ks) : blank ks (doTestModeSelect on s)
    = blank ks s := by
  simp [doTestModeSelect, *]

@[simp] theorem blank_returnMcast (k : Nat) (s : State) (h0 : Comp.slc ∈ ks) (h1 : Comp.dlv ∈ ks) (h2 : Comp.twin ∈
    ks) (h3 : Comp.tly ∈ ks) (h4 : Comp.ctr ∈ ks) : blank ks (returnMcast k s) = blank ks s := by
  unfold returnMcast
  repeat' first
    | with_reducible rfl
    | (simp [*]; done)
    | split
    | (refine (blank_foldl (fun _ _ => ?_) _ _).trans ?_)
    | dsimp only
    | simp [*]

@[simp] theorem blank_returnUngranted (s : State) (h0 : Comp.intake ∈ ks) (h1 : Comp.slc ∈ ks) (h2 : Comp.dlv ∈ ks)
    (h3 : Comp.twin ∈ ks) (h4 : Comp.relay ∈ ks) (h5 : Comp.tly ∈ ks) (h6 : Comp.ctr ∈ ks) : blank ks (returnUngranted
    s) = blank ks s := by
  simp [returnUngranted, *]

@[simp] theorem blank_doScanEntry (s : State) (hw : Wide ks) : blank ks (doScanEntry s) = blank ks s := by
  simp [doScanEntry, *]

@[simp] theorem blank_doScanStopped (s : State) (hw : Wide ks) : blank ks (doScanStopped s) = blank ks s := by
  simp [doScanStopped, *]

@[simp] theorem blank_oweScan (seq : BitVec 16) (r : Nat) (s : State) (h0 : Comp.dlv ∈ ks) : blank ks (oweScan seq r
    s) = blank ks s := by
  simp [oweScan, *]

@[simp] theorem blank_doScanEnd (s : State) (hw : Wide ks) : blank ks (doScanEnd s) = blank ks s := by
  unfold doScanEnd
  split
  · refine (blank_afterDlv _ hw).trans ((blank_foldl (fun _ _ => ?_) _ _).trans ?_) <;> simp [hw]
  · rfl

@[simp] theorem blank_doDrainComplete (s : State) (hw : Wide ks) : blank ks (doDrainComplete s) = blank ks s := by
  simp [doDrainComplete, *]

@[simp] theorem blank_mergeOne (k : Nat) (sh : Shadow) (s : State) (h0 : Comp.intake ∈ ks) (h1 : Comp.slc ∈ ks) (h2 :
    Comp.ctr ∈ ks) : blank ks (mergeOne k sh s) = blank ks s := by
  unfold mergeOne
  repeat' first
    | with_reducible rfl
    | (simp [*]; done)
    | split
    | (refine (blank_foldl (fun _ _ => ?_) _ _).trans ?_)
    | dsimp only
    | simp [*]

@[simp] theorem blank_doMergeEntry (k : Nat) (stolen : Bool) (s : State) (hw : Wide ks) : blank ks (doMergeEntry k
    stolen s) = blank ks s := by
  unfold doMergeEntry
  repeat' first
    | with_reducible rfl
    | (simp [*]; done)
    | split
    | (refine (blank_foldl (fun _ _ => ?_) _ _).trans ?_)
    | dsimp only
    | simp [*]

@[simp] theorem blank_doScrubWord (u : ErrUnit) (store word : DW) (log : Bool) (r : ScrubResult) (s : State) (hw :
    Wide ks) : blank ks (doScrubWord u store word log r s) = blank ks s := by
  unfold doScrubWord
  repeat' first
    | with_reducible rfl
    | (simp [*]; done)
    | split
    | (refine (blank_foldl (fun _ _ => ?_) _ _).trans ?_)
    | dsimp only
    | simp [*]

end Sys2Proof.Machine
end

