-- ==== Sys2Proof/Laws/FrameErrCore.lean ====
section
/-! SUPPORT. Frames of the operations of Machine/ErrCore.lean (see Frame.lean). -/

namespace Sys2Proof.Machine

open Sys2Proof.Safety

variable {ks : List Comp}

@[simp] theorem blank_doErrorRingCopy (s : State) (h0 : Comp.dlv ∈ ks) (h1 : Comp.log ∈ ks) : blank ks
    (doErrorRingCopy s) = blank ks s := by
  simp [doErrorRingCopy, *]

@[simp] theorem blank_ackEntry (e : Nat) (s : State) (h0 : Comp.log ∈ ks) : blank ks (ackEntry e s) = blank ks s := by
  unfold ackEntry
  repeat' first
    | with_reducible rfl
    | (simp [*]; done)
    | split
    | (refine (blank_foldl (fun _ _ => ?_) _ _).trans ?_)
    | dsimp only
    | simp [*]

@[simp] theorem blank_doCeAutoAck (e : Nat) (s : State) (h0 : Comp.log ∈ ks) : blank ks (doCeAutoAck e s) = blank ks s
    := by
  unfold doCeAutoAck
  repeat' first
    | with_reducible rfl
    | (simp [*]; done)
    | split
    | (refine (blank_foldl (fun _ _ => ?_) _ _).trans ?_)
    | dsimp only
    | simp [*]

@[simp] theorem blank_doLostSummary (s : State) (h0 : Comp.log ∈ ks) : blank ks (doLostSummary s) = blank ks s := by
  simp [doLostSummary, *]

@[simp] theorem blank_halt (s : State) (hw : Wide ks) : blank ks (halt s) = blank ks s := by
  simp [halt, *]

@[simp] theorem blank_coreFails (s : State) (hw : Wide ks) : blank ks (coreFails s) = blank ks s := by
  unfold coreFails
  repeat' first
    | with_reducible rfl
    | (simp [*]; done)
    | split
    | (refine (blank_foldl (fun _ _ => ?_) _ _).trans ?_)
    | dsimp only
    | simp [*]

@[simp] theorem blank_doCoreFault (f : CoreFaultKind) (s : State) (hw : Wide ks) : blank ks (doCoreFault f s) = blank
    ks s := by
  unfold doCoreFault
  repeat' first
    | with_reducible rfl
    | (simp [*]; done)
    | split
    | (refine (blank_foldl (fun _ _ => ?_) _ _).trans ?_)
    | dsimp only
    | simp [*]

@[simp] theorem blank_doCoreWdog (s : State) (hw : Wide ks) : blank ks (doCoreWdog s) = blank ks s := by
  simp [doCoreWdog, *]

@[simp] theorem blank_doErrorDetected (k : ErrKind) (u : ErrUnit) (detail : BitVec 256) (s : State) (hw : Wide ks) :
    blank ks (doErrorDetected k u detail s) = blank ks s := by
  unfold doErrorDetected
  repeat' first
    | with_reducible rfl
    | (simp [*]; done)
    | split
    | (refine (blank_foldl (fun _ _ => ?_) _ _).trans ?_)
    | dsimp only
    | simp [*]

@[simp] theorem blank_fwUp (s : State) (hw : Wide ks) : blank ks (fwUp s) = blank ks s := by
  simp [fwUp, *]

@[simp] theorem blank_doFwRestartReady (verified : Bool) (s : State) (hw : Wide ks) : blank ks (doFwRestartReady
    verified s) = blank ks s := by
  simp [doFwRestartReady, *]

end Sys2Proof.Machine
end

