-- ==== Sys2Proof/Laws/FrameProfile.lean ====
section
/-! SUPPORT. Frames of the operations of Machine/Profile.lean (see Frame.lean). -/

namespace Sys2Proof.Machine

open Sys2Proof.Safety

variable {ks : List Comp}

@[simp] theorem blank_startProfile (s : State) (h0 : Comp.pwr ∈ ks) (h1 : Comp.glb ∈ ks) (h2 : Comp.slc ∈ ks) (h3 :
    Comp.dlv ∈ ks) (h4 : Comp.ctr ∈ ks) : blank ks (startProfile s) = blank ks s := by
  simp [startProfile, *]

@[simp] theorem blank_setProfile (p : BitVec 2) (s : State) (h0 : Comp.pwr ∈ ks) (h1 : Comp.glb ∈ ks) (h2 : Comp.slc ∈
    ks) (h3 : Comp.dlv ∈ ks) (h4 : Comp.ctr ∈ ks) : blank ks (setProfile p s) = blank ks s := by
  simp [setProfile, *]

@[simp] theorem blank_takeProfile (s : State) (h0 : Comp.pwr ∈ ks) (h1 : Comp.glb ∈ ks) (h2 : Comp.slc ∈ ks) (h3 :
    Comp.dlv ∈ ks) (h4 : Comp.ctr ∈ ks) : blank ks (takeProfile s) = blank ks s := by
  simp [takeProfile, *]

@[simp] theorem blank_doProfileChangeComplete (s : State) (hw : Wide ks) : blank ks (doProfileChangeComplete s) =
    blank ks s := by
  simp [doProfileChangeComplete, *]

end Sys2Proof.Machine
end

