-- ==== Sys2Proof/Laws/FrameMbxCmd.lean ====
section
/-! SUPPORT. Frames of the operations of Machine/MbxCmd.lean (see Frame.lean). -/

namespace Sys2Proof.Machine

open Sys2Proof.Safety

variable {ks : List Comp}

@[simp] theorem blank_withSlice (k : Nat) (f : State → State) (s : State) (h0 : Comp.pwr ∈ ks) (hf : ∀ x0, blank ks (f
    x0) = blank ks x0) : blank ks (withSlice k f s) = blank ks s := by
  simp [withSlice, *]

@[simp] theorem blank_doMbxArgsTaken (m : Mbx) (s : State) (h0 : Comp.pwr ∈ ks) (h1 : Comp.intake ∈ ks) (h2 : Comp.mbx
    ∈ ks) (h3 : Comp.ctr ∈ ks) : blank ks (doMbxArgsTaken m s) = blank ks s := by
  unfold doMbxArgsTaken
  repeat' first
    | with_reducible rfl
    | (simp [*]; done)
    | split
    | (refine (blank_foldl (fun _ _ => ?_) _ _).trans ?_)
    | dsimp only
    | simp [*]

@[simp] theorem blank_doMbxSlow (m : Mbx) (s : State) (h0 : Comp.mbx ∈ ks) (h1 : Comp.log ∈ ks) : blank ks (doMbxSlow
    m s) = blank ks s := by
  simp [doMbxSlow, *]

@[simp] theorem blank_doMbxNop (m : Mbx) (s : State) (h0 : Comp.freeCtr ∈ ks) (h1 : Comp.pwr ∈ ks) (h2 : Comp.intake ∈
    ks) (h3 : Comp.mbx ∈ ks) (h4 : Comp.ctr ∈ ks) : blank ks (doMbxNop m s) = blank ks s := by
  simp [doMbxNop, *]

@[simp] theorem blank_doMbxInfo (m : Mbx) (s : State) (h0 : Comp.freeCtr ∈ ks) (h1 : Comp.pwr ∈ ks) (h2 : Comp.intake
    ∈ ks) (h3 : Comp.mbx ∈ ks) (h4 : Comp.ctr ∈ ks) : blank ks (doMbxInfo m s) = blank ks s := by
  simp [doMbxInfo, *]

@[simp] theorem blank_doSysFence (m : Mbx) (s : State) (hw : Wide ks) : blank ks (doSysFence m s) = blank ks s := by
  unfold doSysFence
  repeat' first
    | with_reducible rfl
    | (simp [*]; done)
    | (apply blank_runCmd <;> first | assumption | intros)
    | split
    | (refine (blank_foldl (fun _ _ => ?_) _ _).trans ?_)
    | dsimp only
    | simp [*]

@[simp] theorem blank_maskCmd (m : Mbx) (src : BitVec 18) (w : DW) (s : State) (h0 : Comp.freeCtr ∈ ks) (h1 : Comp.slc
    ∈ ks) (h2 : Comp.mbx ∈ ks) (h3 : Comp.fw ∈ ks) (h4 : Comp.link ∈ ks) (h5 : Comp.ctr ∈ ks) : blank ks (maskCmd m
    src w s) = blank ks s := by
  unfold maskCmd
  repeat' first
    | with_reducible rfl
    | (simp [*]; done)
    | split
    | (refine (blank_foldl (fun _ _ => ?_) _ _).trans ?_)
    | dsimp only
    | simp [*]

@[simp] theorem blank_doSrcMask (m : Mbx) (s : State) (hw : Wide ks) : blank ks (doSrcMask m s) = blank ks s := by
  unfold doSrcMask
  repeat' first
    | with_reducible rfl
    | (simp [*]; done)
    | (apply blank_runCmd <;> first | assumption | intros)
    | (apply blank_withSlice <;> first | assumption | intros)
    | split
    | (refine (blank_foldl (fun _ _ => ?_) _ _).trans ?_)
    | dsimp only
    | simp [*]

@[simp] theorem blank_doSrcRead (m : Mbx) (s : State) (h0 : Comp.freeCtr ∈ ks) (h1 : Comp.pwr ∈ ks) (h2 : Comp.intake
    ∈ ks) (h3 : Comp.mbx ∈ ks) (h4 : Comp.ctr ∈ ks) : blank ks (doSrcRead m s) = blank ks s := by
  unfold doSrcRead
  repeat' first
    | with_reducible rfl
    | (simp [*]; done)
    | (apply blank_runCmd <;> first | assumption | intros)
    | (apply blank_withSlice <;> first | assumption | intros)
    | split
    | (refine (blank_foldl (fun _ _ => ?_) _ _).trans ?_)
    | dsimp only
    | simp [*]

@[simp] theorem blank_doRingQuiesce (m : Mbx) (s : State) (hw : Wide ks) : blank ks (doRingQuiesce m s) = blank ks s
    := by
  unfold doRingQuiesce
  repeat' first
    | with_reducible rfl
    | (simp [*]; done)
    | (apply blank_runCmd <;> first | assumption | intros)
    | split
    | (refine (blank_foldl (fun _ _ => ?_) _ _).trans ?_)
    | dsimp only
    | simp [*]

@[simp] theorem blank_doRingRead (m : Mbx) (s : State) (h0 : Comp.freeCtr ∈ ks) (h1 : Comp.pwr ∈ ks) (h2 : Comp.intake
    ∈ ks) (h3 : Comp.mbx ∈ ks) (h4 : Comp.ctr ∈ ks) : blank ks (doRingRead m s) = blank ks s := by
  simp [doRingRead, *]

@[simp] theorem blank_doPrfSet (m : Mbx) (s : State) (hw : Wide ks) : blank ks (doPrfSet m s) = blank ks s := by
  unfold doPrfSet
  repeat' first
    | with_reducible rfl
    | (simp [*]; done)
    | (apply blank_runCmd <;> first | assumption | intros)
    | split
    | (refine (blank_foldl (fun _ _ => ?_) _ _).trans ?_)
    | dsimp only
    | simp [*]

@[simp] theorem blank_doTwinStatus (m : Mbx) (s : State) (h0 : Comp.freeCtr ∈ ks) (h1 : Comp.pwr ∈ ks) (h2 :
    Comp.intake ∈ ks) (h3 : Comp.mbx ∈ ks) (h4 : Comp.ctr ∈ ks) : blank ks (doTwinStatus m s) = blank ks s := by
  simp [doTwinStatus, *]

@[simp] theorem blank_doTwinWitness (m : Mbx) (s : State) (h0 : Comp.out ∈ ks) (h1 : Comp.freeCtr ∈ ks) (h2 : Comp.pwr
    ∈ ks) (h3 : Comp.intake ∈ ks) (h4 : Comp.mbx ∈ ks) (h5 : Comp.twin ∈ ks) (h6 : Comp.ctr ∈ ks) : blank ks
    (doTwinWitness m s) = blank ks s := by
  simp [doTwinWitness, *]

@[simp] theorem blank_doTwinRewash (m : Mbx) (s : State) (h0 : Comp.freeCtr ∈ ks) (h1 : Comp.pwr ∈ ks) (h2 :
    Comp.intake ∈ ks) (h3 : Comp.mbx ∈ ks) (h4 : Comp.twin ∈ ks) (h5 : Comp.link ∈ ks) (h6 : Comp.ctr ∈ ks) : blank ks
    (doTwinRewash m s) = blank ks s := by
  simp [doTwinRewash, *]

@[simp] theorem blank_ledgerKeys (m : Mbx) (t : BitVec 8) (s : State) (h0 : Comp.pwr ∈ ks) (h1 : Comp.fw ∈ ks) (h2 :
    Comp.ctr ∈ ks) : blank ks (ledgerKeys m t s) = blank ks s := by
  unfold ledgerKeys
  repeat' first
    | with_reducible rfl
    | (simp [*]; done)
    | split
    | (refine (blank_foldl (fun _ _ => ?_) _ _).trans ?_)
    | dsimp only
    | simp [*]

@[simp] theorem blank_doTlyLedger (m : Mbx) (s : State) (h0 : Comp.freeCtr ∈ ks) (h1 : Comp.pwr ∈ ks) (h2 :
    Comp.intake ∈ ks) (h3 : Comp.dlv ∈ ks) (h4 : Comp.mbx ∈ ks) (h5 : Comp.fw ∈ ks) (h6 : Comp.tly ∈ ks) (h7 :
    Comp.ctr ∈ ks) : blank ks (doTlyLedger m s) = blank ks s := by
  simp [doTlyLedger, *]

@[simp] theorem blank_doCtrConfig (m : Mbx) (s : State) (h0 : Comp.freeCtr ∈ ks) (h1 : Comp.pwr ∈ ks) (h2 :
    Comp.intake ∈ ks) (h3 : Comp.mbx ∈ ks) (h4 : Comp.ctr ∈ ks) : blank ks (doCtrConfig m s) = blank ks s := by
  simp [doCtrConfig, *]

@[simp] theorem blank_doCtrSnapshot (m : Mbx) (s : State) (h0 : Comp.freeCtr ∈ ks) (h1 : Comp.pwr ∈ ks) (h2 :
    Comp.intake ∈ ks) (h3 : Comp.mbx ∈ ks) (h4 : Comp.ctr ∈ ks) : blank ks (doCtrSnapshot m s) = blank ks s := by
  simp [doCtrSnapshot, *]

@[simp] theorem blank_doRecScan (m : Mbx) (s : State) (hw : Wide ks) : blank ks (doRecScan m s) = blank ks s := by
  unfold doRecScan
  repeat' first
    | with_reducible rfl
    | (simp [*]; done)
    | (apply blank_runCmd <;> first | assumption | intros)
    | split
    | (refine (blank_foldl (fun _ _ => ?_) _ _).trans ?_)
    | dsimp only
    | simp [*]

@[simp] theorem blank_doRecResume (m : Mbx) (s : State) (hw : Wide ks) : blank ks (doRecResume m s) = blank ks s := by
  unfold doRecResume
  repeat' first
    | with_reducible rfl
    | (simp [*]; done)
    | (apply blank_runCmd <;> first | assumption | intros)
    | split
    | (refine (blank_foldl (fun _ _ => ?_) _ _).trans ?_)
    | dsimp only
    | simp [*]

@[simp] theorem blank_leaveBypass (clean : Bool) (syn : Byte) (e : BitVec 6) (s : State) (h0 : Comp.log ∈ ks) : blank
    ks (leaveBypass clean syn e s) = blank ks s := by
  simp [leaveBypass, *]

@[simp] theorem blank_doErrAck (m : Mbx) (clean : Bool) (syn : Byte) (e : BitVec 6) (s : State) (h0 : Comp.freeCtr ∈
    ks) (h1 : Comp.pwr ∈ ks) (h2 : Comp.intake ∈ ks) (h3 : Comp.mbx ∈ ks) (h4 : Comp.ctr ∈ ks) (h5 : Comp.log ∈ ks) :
    blank ks (doErrAck m clean syn e s) = blank ks s := by
  simp [doErrAck, *]

@[simp] theorem blank_doErrLogfailClr (m : Mbx) (clean : Bool) (syn : Byte) (e : BitVec 6) (s : State) (h0 :
    Comp.freeCtr ∈ ks) (h1 : Comp.pwr ∈ ks) (h2 : Comp.intake ∈ ks) (h3 : Comp.mbx ∈ ks) (h4 : Comp.ctr ∈ ks) (h5 :
    Comp.log ∈ ks) : blank ks (doErrLogfailClr m clean syn e s) = blank ks s := by
  unfold doErrLogfailClr
  repeat' first
    | with_reducible rfl
    | (simp [*]; done)
    | (apply blank_runCmd <;> first | assumption | intros)
    | split
    | (refine (blank_foldl (fun _ _ => ?_) _ _).trans ?_)
    | dsimp only
    | simp [*]

end Sys2Proof.Machine
end

