-- ==== Sys2Proof/Laws/FrameRs.lean ====
section
/-! SUPPORT. Frames of the operations of Machine/Rs.lean (see Frame.lean). -/

namespace Sys2Proof.Machine

open Sys2Proof.Safety

variable {ks : List Comp}


end Sys2Proof.Machine
end

