-- ==== Sys2Proof/Laws/FrameRelayOps.lean ====
section
/-! SUPPORT. Frames of the operations of Machine/RelayOps.lean (see Frame.lean). -/

namespace Sys2Proof.Machine

open Sys2Proof.Safety

variable {ks : List Comp}

@[simp] theorem blank_takeBseq (blk : BitVec 11) (strap : Bool) (s : State) (h0 : Comp.relay ∈ ks) : blank ks
    (takeBseq blk strap s).2 = blank ks s := by
  simp [takeBseq, *]

@[simp] theorem blank_queueBundle (b : Bundle) (s : State) (h0 : Comp.link ∈ ks) : blank ks (queueBundle b s) = blank
    ks s := by
  simp [queueBundle, *]

@[simp] theorem blank_countResend (b : Bundle) (s : State) (h0 : Comp.relay ∈ ks) : blank ks (countResend b s) = blank
    ks s := by
  simp [countResend, *]

@[simp] theorem blank_moveFences (b c : Bundle) (s : State) (h0 : Comp.mbx ∈ ks) : blank ks (moveFences b c s) = blank
    ks s := by
  simp [moveFences, *]

@[simp] theorem blank_redirect (b : Bundle) (s : State) (h0 : Comp.mbx ∈ ks) (h1 : Comp.link ∈ ks) (h2 : Comp.relay ∈
    ks) (h3 : Comp.ctr ∈ ks) : blank ks (redirect b s) = blank ks s := by
  simp [redirect, *]

@[simp] theorem blank_redirectAll (blk : BitVec 11) (strap : Bool) (s : State) (h0 : Comp.mbx ∈ ks) (h1 : Comp.link ∈
    ks) (h2 : Comp.relay ∈ ks) (h3 : Comp.ctr ∈ ks) : blank ks (redirectAll blk strap s) = blank ks s := by
  simp [redirectAll, *]

@[simp] theorem blank_abortFences (blk : BitVec 11) (s : State) (h0 : Comp.freeCtr ∈ ks) (h1 : Comp.pwr ∈ ks) (h2 :
    Comp.intake ∈ ks) (h3 : Comp.mbx ∈ ks) (h4 : Comp.ctr ∈ ks) : blank ks (abortFences blk s) = blank ks s := by
  unfold abortFences
  repeat' first
    | with_reducible rfl
    | (simp [*]; done)
    | split
    | (refine (blank_foldl (fun _ _ => ?_) _ _).trans ?_)
    | dsimp only
    | simp [*]

@[simp] theorem blank_unawait (blk : BitVec 11) (strap : Bool) (s : State) (h0 : Comp.relay ∈ ks) : blank ks (unawait
    blk strap s) = blank ks s := by
  unfold unawait
  repeat' first
    | with_reducible rfl
    | (simp [*]; done)
    | split
    | (refine (blank_foldl (fun _ _ => ?_) _ _).trans ?_)
    | dsimp only
    | simp [*]

@[simp] theorem blank_awaitAnew (blk : BitVec 11) (strap : Bool) (s : State) (h0 : Comp.relay ∈ ks) : blank ks
    (awaitAnew blk strap s) = blank ks s := by
  unfold awaitAnew
  repeat' first
    | with_reducible rfl
    | (simp [*]; done)
    | split
    | (refine (blank_foldl (fun _ _ => ?_) _ _).trans ?_)
    | dsimp only
    | simp [*]

@[simp] theorem blank_failPath (blk : BitVec 11) (strap : Bool) (s : State) (h0 : Comp.freeCtr ∈ ks) (h1 : Comp.pwr ∈
    ks) (h2 : Comp.intake ∈ ks) (h3 : Comp.mbx ∈ ks) (h4 : Comp.twin ∈ ks) (h5 : Comp.link ∈ ks) (h6 : Comp.relay ∈
    ks) (h7 : Comp.ctr ∈ ks) (h8 : Comp.log ∈ ks) : blank ks (failPath blk strap s) = blank ks s := by
  simp [failPath, *]

@[simp] theorem blank_resendBundle (b : Bundle) (s : State) (h0 : Comp.freeCtr ∈ ks) (h1 : Comp.pwr ∈ ks) (h2 :
    Comp.intake ∈ ks) (h3 : Comp.mbx ∈ ks) (h4 : Comp.twin ∈ ks) (h5 : Comp.link ∈ ks) (h6 : Comp.relay ∈ ks) (h7 :
    Comp.ctr ∈ ks) (h8 : Comp.log ∈ ks) : blank ks (resendBundle b s) = blank ks s := by
  simp [resendBundle, *]

@[simp] theorem blank_pathGood (blk : BitVec 11) (strap : Bool) (s : State) (h0 : Comp.mbx ∈ ks) (h1 : Comp.link ∈ ks)
    (h2 : Comp.relay ∈ ks) (h3 : Comp.ctr ∈ ks) : blank ks (pathGood blk strap s) = blank ks s := by
  unfold pathGood
  repeat' first
    | with_reducible rfl
    | (simp [*]; done)
    | split
    | (refine (blank_foldl (fun _ _ => ?_) _ _).trans ?_)
    | dsimp only
    | simp [*]

@[simp] theorem blank_sessionUp (blk : BitVec 11) (strap : Bool) (s : State) (h0 : Comp.freeCtr ∈ ks) (h1 : Comp.pwr ∈
    ks) (h2 : Comp.intake ∈ ks) (h3 : Comp.mbx ∈ ks) (h4 : Comp.twin ∈ ks) (h5 : Comp.link ∈ ks) (h6 : Comp.relay ∈
    ks) (h7 : Comp.ctr ∈ ks) (h8 : Comp.log ∈ ks) : blank ks (sessionUp blk strap s) = blank ks s := by
  simp [sessionUp, *]

end Sys2Proof.Machine
end

