-- ==== Sys2Proof/Laws/FrameTxn.lean ====
section
/-! SUPPORT. Frames of the operations of Machine/Txn.lean (see Frame.lean). -/

namespace Sys2Proof.Machine

open Sys2Proof.Safety

variable {ks : List Comp}

@[simp] theorem blank_sayAborted (m : Mbx) (s : State) (h0 : Comp.freeCtr ∈ ks) (h1 : Comp.pwr ∈ ks) (h2 : Comp.intake
    ∈ ks) (h3 : Comp.mbx ∈ ks) (h4 : Comp.ctr ∈ ks) : blank ks (sayAborted m s) = blank ks s := by
  unfold sayAborted
  repeat' first
    | with_reducible rfl
    | (simp [*]; done)
    | split
    | (refine (blank_foldl (fun _ _ => ?_) _ _).trans ?_)
    | dsimp only
    | simp [*]

@[simp] theorem blank_noTxn (m : Mbx) (s : State) (h0 : Comp.freeCtr ∈ ks) (h1 : Comp.pwr ∈ ks) (h2 : Comp.intake ∈
    ks) (h3 : Comp.mbx ∈ ks) (h4 : Comp.ctr ∈ ks) : blank ks (noTxn m s) = blank ks s := by
  simp [noTxn, *]

@[simp] theorem blank_setTxn (m : Mbx) (t : Option Txn) (s : State) (h0 : Comp.mbx ∈ ks) : blank ks (setTxn m t s) =
    blank ks s := by
  simp [setTxn, *]

@[simp] theorem blank_doTxnBegin (m : Mbx) (s : State) (h0 : Comp.freeCtr ∈ ks) (h1 : Comp.pwr ∈ ks) (h2 : Comp.intake
    ∈ ks) (h3 : Comp.mbx ∈ ks) (h4 : Comp.ctr ∈ ks) : blank ks (doTxnBegin m s) = blank ks s := by
  simp [doTxnBegin, *]

@[simp] theorem blank_doTxnAbort (m : Mbx) (s : State) (h0 : Comp.freeCtr ∈ ks) (h1 : Comp.pwr ∈ ks) (h2 : Comp.intake
    ∈ ks) (h3 : Comp.mbx ∈ ks) (h4 : Comp.ctr ∈ ks) : blank ks (doTxnAbort m s) = blank ks s := by
  unfold doTxnAbort
  repeat' first
    | with_reducible rfl
    | (simp [*]; done)
    | (apply blank_runCmd <;> first | assumption | intros)
    | split
    | (refine (blank_foldl (fun _ _ => ?_) _ _).trans ?_)
    | dsimp only
    | simp [*]

@[simp] theorem blank_doTxnStatus (m : Mbx) (s : State) (h0 : Comp.freeCtr ∈ ks) (h1 : Comp.pwr ∈ ks) (h2 :
    Comp.intake ∈ ks) (h3 : Comp.mbx ∈ ks) (h4 : Comp.ctr ∈ ks) : blank ks (doTxnStatus m s) = blank ks s := by
  unfold doTxnStatus
  repeat' first
    | with_reducible rfl
    | (simp [*]; done)
    | (apply blank_runCmd <;> first | assumption | intros)
    | split
    | (refine (blank_foldl (fun _ _ => ?_) _ _).trans ?_)
    | dsimp only
    | simp [*]

@[simp] theorem blank_stageItems (m : Mbx) (items : List Item) (t : Txn) (s : State) (h0 : Comp.freeCtr ∈ ks) (h1 :
    Comp.pwr ∈ ks) (h2 : Comp.intake ∈ ks) (h3 : Comp.mbx ∈ ks) (h4 : Comp.ctr ∈ ks) : blank ks (stageItems m items t
    s) = blank ks s := by
  simp [stageItems, *]

@[simp] theorem blank_doStage (m : Mbx) (op : Nat) (s : State) (h0 : Comp.freeCtr ∈ ks) (h1 : Comp.pwr ∈ ks) (h2 :
    Comp.intake ∈ ks) (h3 : Comp.mbx ∈ ks) (h4 : Comp.ctr ∈ ks) : blank ks (doStage m op s) = blank ks s := by
  unfold doStage
  repeat' first
    | with_reducible rfl
    | (simp [*]; done)
    | (apply blank_runCmd <;> first | assumption | intros)
    | split
    | (refine (blank_foldl (fun _ _ => ?_) _ _).trans ?_)
    | dsimp only
    | simp [*]

@[simp] theorem blank_doSrcStage (m : Mbx) (s : State) (h0 : Comp.freeCtr ∈ ks) (h1 : Comp.pwr ∈ ks) (h2 : Comp.intake
    ∈ ks) (h3 : Comp.mbx ∈ ks) (h4 : Comp.ctr ∈ ks) : blank ks (doSrcStage m s) = blank ks s := by
  simp [doSrcStage, *]

@[simp] theorem blank_doRingStage (m : Mbx) (s : State) (h0 : Comp.freeCtr ∈ ks) (h1 : Comp.pwr ∈ ks) (h2 :
    Comp.intake ∈ ks) (h3 : Comp.mbx ∈ ks) (h4 : Comp.ctr ∈ ks) : blank ks (doRingStage m s) = blank ks s := by
  simp [doRingStage, *]

@[simp] theorem blank_doGateStage (m : Mbx) (s : State) (h0 : Comp.freeCtr ∈ ks) (h1 : Comp.pwr ∈ ks) (h2 :
    Comp.intake ∈ ks) (h3 : Comp.mbx ∈ ks) (h4 : Comp.ctr ∈ ks) : blank ks (doGateStage m s) = blank ks s := by
  simp [doGateStage, *]

@[simp] theorem blank_doMcastStage (m : Mbx) (s : State) (h0 : Comp.freeCtr ∈ ks) (h1 : Comp.pwr ∈ ks) (h2 :
    Comp.intake ∈ ks) (h3 : Comp.mbx ∈ ks) (h4 : Comp.ctr ∈ ks) : blank ks (doMcastStage m s) = blank ks s := by
  simp [doMcastStage, *]

@[simp] theorem blank_doRemoteStage (m : Mbx) (s : State) (h0 : Comp.freeCtr ∈ ks) (h1 : Comp.pwr ∈ ks) (h2 :
    Comp.intake ∈ ks) (h3 : Comp.mbx ∈ ks) (h4 : Comp.ctr ∈ ks) : blank ks (doRemoteStage m s) = blank ks s := by
  simp [doRemoteStage, *]

@[simp] theorem blank_doGroupStage (m : Mbx) (s : State) (h0 : Comp.freeCtr ∈ ks) (h1 : Comp.pwr ∈ ks) (h2 :
    Comp.intake ∈ ks) (h3 : Comp.mbx ∈ ks) (h4 : Comp.ctr ∈ ks) : blank ks (doGroupStage m s) = blank ks s := by
  simp [doGroupStage, *]

@[simp] theorem blank_prepare (m : Mbx) (t : Txn) (s : State) (h0 : Comp.mbx ∈ ks) (h1 : Comp.fw ∈ ks) (h2 : Comp.link
    ∈ ks) : blank ks (prepare m t s) = blank ks s := by
  simp [prepare, *]

@[simp] theorem blank_commitAlone (m : Mbx) (t : Txn) (s : State) (hw : Wide ks) : blank ks (commitAlone m t s) =
    blank ks s := by
  simp [commitAlone, *]

@[simp] theorem blank_commitLease (m : Mbx) (t : Txn) (s : State) (h0 : Comp.out ∈ ks) (h1 : Comp.freeCtr ∈ ks) (h2 :
    Comp.mbx ∈ ks) (h3 : Comp.fw ∈ ks) (h4 : Comp.twin ∈ ks) (h5 : Comp.ctr ∈ ks) : blank ks (commitLease m t s) =
    blank ks s := by
  simp [commitLease, *]

@[simp] theorem blank_commitNow (m : Mbx) (t : Txn) (s : State) (hw : Wide ks) : blank ks (commitNow m t s) = blank ks
    s := by
  unfold commitNow
  repeat' first
    | with_reducible rfl
    | (simp [*]; done)
    | split
    | (refine (blank_foldl (fun _ _ => ?_) _ _).trans ?_)
    | dsimp only
    | simp [*]

@[simp] theorem blank_commitTxn (m : Mbx) (t : Txn) (fresh : Bool) (s : State) (hw : Wide ks) : blank ks (commitTxn m
    t fresh s) = blank ks s := by
  simp [commitTxn, *]

@[simp] theorem blank_commitCmd (m : Mbx) (fresh : Bool) (s : State) (hw : Wide ks) : blank ks (commitCmd m fresh s) =
    blank ks s := by
  unfold commitCmd
  repeat' first
    | with_reducible rfl
    | (simp [*]; done)
    | split
    | (refine (blank_foldl (fun _ _ => ?_) _ _).trans ?_)
    | dsimp only
    | simp [*]

@[simp] theorem blank_doTxnCommit (m : Mbx) (s : State) (hw : Wide ks) : blank ks (doTxnCommit m s) = blank ks s := by
  simp [doTxnCommit, *]

end Sys2Proof.Machine
end

