-- ==== Sys2Proof/Laws/FrameTenant.lean ====
section
/-! SUPPORT. Frames of the operations of Machine/Tenant.lean (see Frame.lean). -/

namespace Sys2Proof.Machine

open Sys2Proof.Safety

variable {ks : List Comp}

@[simp] theorem blank_doTenGranule (m : Mbx) (s : State) (h0 : Comp.freeCtr ∈ ks) (h1 : Comp.pwr ∈ ks) (h2 :
    Comp.intake ∈ ks) (h3 : Comp.slc ∈ ks) (h4 : Comp.mbx ∈ ks) (h5 : Comp.ctr ∈ ks) : blank ks (doTenGranule m s) =
    blank ks s := by
  unfold doTenGranule
  repeat' first
    | with_reducible rfl
    | (simp [*]; done)
    | (apply blank_runCmd <;> first | assumption | intros)
    | split
    | (refine (blank_foldl (fun _ _ => ?_) _ _).trans ?_)
    | dsimp only
    | simp [*]

@[simp] theorem blank_copyRegions (g : Nat) (c : BitVec 8) (s : State) (h0 : Comp.gates ∈ ks) : blank ks (copyRegions
    g c s) = blank ks s := by
  simp [copyRegions, *]

@[simp] theorem blank_setColour (t c : BitVec 8) (s : State) (h0 : Comp.tenant ∈ ks) : blank ks (setColour t c s) =
    blank ks s := by
  simp [setColour, *]

@[simp] theorem blank_twoColour (c : BitVec 8) (s : State) (h0 : Comp.gates ∈ ks) (h1 : Comp.tenant ∈ ks) : blank ks
    (twoColour c s) = blank ks s := by
  simp [twoColour, *]

@[simp] theorem blank_doTenColour (m : Mbx) (s : State) (h0 : Comp.freeCtr ∈ ks) (h1 : Comp.pwr ∈ ks) (h2 :
    Comp.intake ∈ ks) (h3 : Comp.gates ∈ ks) (h4 : Comp.mbx ∈ ks) (h5 : Comp.tenant ∈ ks) (h6 : Comp.ctr ∈ ks) : blank
    ks (doTenColour m s) = blank ks s := by
  simp [doTenColour, *]

@[simp] theorem blank_doTenShare (m : Mbx) (s : State) (h0 : Comp.freeCtr ∈ ks) (h1 : Comp.pwr ∈ ks) (h2 : Comp.intake
    ∈ ks) (h3 : Comp.mbx ∈ ks) (h4 : Comp.tenant ∈ ks) (h5 : Comp.ctr ∈ ks) : blank ks (doTenShare m s) = blank ks s
    := by
  simp [doTenShare, *]

@[simp] theorem blank_doTenGrant (m : Mbx) (s : State) (h0 : Comp.freeCtr ∈ ks) (h1 : Comp.pwr ∈ ks) (h2 : Comp.intake
    ∈ ks) (h3 : Comp.mbx ∈ ks) (h4 : Comp.tenant ∈ ks) (h5 : Comp.ctr ∈ ks) : blank ks (doTenGrant m s) = blank ks s
    := by
  simp [doTenGrant, *]

@[simp] theorem blank_doTenHandle (m : Mbx) (s : State) (h0 : Comp.freeCtr ∈ ks) (h1 : Comp.pwr ∈ ks) (h2 :
    Comp.intake ∈ ks) (h3 : Comp.mbx ∈ ks) (h4 : Comp.tenant ∈ ks) (h5 : Comp.ctr ∈ ks) : blank ks (doTenHandle m s) =
    blank ks s := by
  simp [doTenHandle, *]

@[simp] theorem blank_doTenStatus (m : Mbx) (s : State) (h0 : Comp.freeCtr ∈ ks) (h1 : Comp.pwr ∈ ks) (h2 :
    Comp.intake ∈ ks) (h3 : Comp.mbx ∈ ks) (h4 : Comp.ctr ∈ ks) : blank ks (doTenStatus m s) = blank ks s := by
  simp [doTenStatus, *]

@[simp] theorem blank_deny (m : Mbx) (s : State) (h0 : Comp.freeCtr ∈ ks) (h1 : Comp.pwr ∈ ks) (h2 : Comp.intake ∈ ks)
    (h3 : Comp.mbx ∈ ks) (h4 : Comp.ctr ∈ ks) : blank ks (deny m s) = blank ks s := by
  simp [deny, *]

@[simp] theorem blank_doTenSeal (m : Mbx) (s : State) (hw : Wide ks) : blank ks (doTenSeal m s) = blank ks s := by
  unfold doTenSeal
  repeat' first
    | with_reducible rfl
    | (simp [*]; done)
    | (apply blank_runCmd <;> first | assumption | intros)
    | split
    | (refine (blank_foldl (fun _ _ => ?_) _ _).trans ?_)
    | dsimp only
    | simp [*]

@[simp] theorem blank_doTenDestroy (m : Mbx) (s : State) (hw : Wide ks) : blank ks (doTenDestroy m s) = blank ks s :=
    by
  unfold doTenDestroy
  repeat' first
    | with_reducible rfl
    | (simp [*]; done)
    | (apply blank_runCmd <;> first | assumption | intros)
    | split
    | (refine (blank_foldl (fun _ _ => ?_) _ _).trans ?_)
    | dsimp only
    | simp [*]

end Sys2Proof.Machine
end

