-- ==== Sys2Proof/Laws/FrameSpdm.lean ====
section
/-! SUPPORT. Frames of the operations of Machine/Spdm.lean (see Frame.lean). -/

namespace Sys2Proof.Machine

open Sys2Proof.Safety

variable {ks : List Comp}

@[simp] theorem blank_spdmSay (m : Mbx) (l0 : List Byte) (s : State) (h0 : Comp.freeCtr ∈ ks) (h1 : Comp.pwr ∈ ks) (h2
    : Comp.intake ∈ ks) (h3 : Comp.mbx ∈ ks) (h4 : Comp.ctr ∈ ks) : blank ks (spdmSay m l0 s) = blank ks s := by
  unfold spdmSay
  repeat' first
    | with_reducible rfl
    | (simp [*]; done)
    | split
    | (refine (blank_foldl (fun _ _ => ?_) _ _).trans ?_)
    | dsimp only
    | simp [*]

@[simp] theorem blank_keyExchange (m : Mbx) (c : Cmd) (s : State) (h0 : Comp.freeCtr ∈ ks) (h1 : Comp.pwr ∈ ks) (h2 :
    Comp.intake ∈ ks) (h3 : Comp.mbx ∈ ks) (h4 : Comp.ctr ∈ ks) : blank ks (keyExchange m c s) = blank ks s := by
  simp [keyExchange, *]

@[simp] theorem blank_finishExchange (m : Mbx) (s : State) (h0 : Comp.freeCtr ∈ ks) (h1 : Comp.pwr ∈ ks) (h2 :
    Comp.intake ∈ ks) (h3 : Comp.mbx ∈ ks) (h4 : Comp.ctr ∈ ks) : blank ks (finishExchange m s) = blank ks s := by
  simp [finishExchange, *]

@[simp] theorem blank_securedMsg (m : Mbx) (op : BitVec 16) (args : List DW) (s : State) (h0 : Comp.freeCtr ∈ ks) (h1
    : Comp.pwr ∈ ks) (h2 : Comp.intake ∈ ks) (h3 : Comp.mbx ∈ ks) (h4 : Comp.ctr ∈ ks) : blank ks (securedMsg m op
    args s) = blank ks s := by
  simp [securedMsg, *]

@[simp] theorem blank_spdmDo (m : Mbx) (c : Cmd) (q : Option SpdmReq) (s : State) (h0 : Comp.freeCtr ∈ ks) (h1 :
    Comp.pwr ∈ ks) (h2 : Comp.intake ∈ ks) (h3 : Comp.mbx ∈ ks) (h4 : Comp.ctr ∈ ks) : blank ks (spdmDo m c q s) =
    blank ks s := by
  unfold spdmDo
  repeat' first
    | with_reducible rfl
    | (simp [*]; done)
    | split
    | (refine (blank_foldl (fun _ _ => ?_) _ _).trans ?_)
    | dsimp only
    | simp [*]

@[simp] theorem blank_doSpdmMsg (m : Mbx) (q : SpdmReq) (s : State) (h0 : Comp.freeCtr ∈ ks) (h1 : Comp.pwr ∈ ks) (h2
    : Comp.intake ∈ ks) (h3 : Comp.mbx ∈ ks) (h4 : Comp.ctr ∈ ks) : blank ks (doSpdmMsg m q s) = blank ks s := by
  simp [doSpdmMsg, *]

end Sys2Proof.Machine
end

