-- ==== Sys2Proof/Laws/FrameTrust.lean ====
section
/-! SUPPORT. Frames of the operations of Machine/Trust.lean (see Frame.lean). -/

namespace Sys2Proof.Machine

open Sys2Proof.Safety

variable {ks : List Comp}

@[simp] theorem blank_doFwStage (m : Mbx) (i : FwImage) (s : State) (h0 : Comp.out ∈ ks) (h1 : Comp.freeCtr ∈ ks) (h2
    : Comp.pwr ∈ ks) (h3 : Comp.intake ∈ ks) (h4 : Comp.mbx ∈ ks) (h5 : Comp.fw ∈ ks) (h6 : Comp.ctr ∈ ks) : blank ks
    (doFwStage m i s) = blank ks s := by
  simp [doFwStage, *]

@[simp] theorem blank_exchange (m : Mbx) (i : FwImage) (s : State) (h0 : Comp.pwr ∈ ks) (h1 : Comp.intake ∈ ks) (h2 :
    Comp.mbx ∈ ks) (h3 : Comp.fw ∈ ks) (h4 : Comp.ctr ∈ ks) : blank ks (exchange m i s) = blank ks s := by
  simp [exchange, *]

@[simp] theorem blank_activate (m : Mbx) (s : State) (h0 : Comp.freeCtr ∈ ks) (h1 : Comp.pwr ∈ ks) (h2 : Comp.intake ∈
    ks) (h3 : Comp.mbx ∈ ks) (h4 : Comp.fw ∈ ks) (h5 : Comp.ctr ∈ ks) : blank ks (activate m s) = blank ks s := by
  unfold activate
  repeat' first
    | with_reducible rfl
    | (simp [*]; done)
    | split
    | (refine (blank_foldl (fun _ _ => ?_) _ _).trans ?_)
    | dsimp only
    | simp [*]

@[simp] theorem blank_doFwActivate (m : Mbx) (s : State) (h0 : Comp.freeCtr ∈ ks) (h1 : Comp.pwr ∈ ks) (h2 :
    Comp.intake ∈ ks) (h3 : Comp.mbx ∈ ks) (h4 : Comp.fw ∈ ks) (h5 : Comp.ctr ∈ ks) : blank ks (doFwActivate m s) =
    blank ks s := by
  unfold doFwActivate
  repeat' first
    | with_reducible rfl
    | (simp [*]; done)
    | (apply blank_runCmd <;> first | assumption | intros)
    | split
    | (refine (blank_foldl (fun _ _ => ?_) _ _).trans ?_)
    | dsimp only
    | simp [*]

@[simp] theorem blank_doFwActivateReady (s : State) (hw : Wide ks) : blank ks (doFwActivateReady s) = blank ks s := by
  unfold doFwActivateReady
  repeat' first
    | with_reducible rfl
    | (simp [*]; done)
    | split
    | (refine (blank_foldl (fun _ _ => ?_) _ _).trans ?_)
    | dsimp only
    | simp [*]

@[simp] theorem blank_doFwFallback (s : State) (h0 : Comp.pwr ∈ ks) (h1 : Comp.intake ∈ ks) (h2 : Comp.mbx ∈ ks) (h3 :
    Comp.fw ∈ ks) (h4 : Comp.ctr ∈ ks) : blank ks (doFwFallback s) = blank ks s := by
  unfold doFwFallback
  repeat' first
    | with_reducible rfl
    | (simp [*]; done)
    | split
    | (refine (blank_foldl (fun _ _ => ?_) _ _).trans ?_)
    | dsimp only
    | simp [*]

@[simp] theorem blank_doFwStatus (m : Mbx) (s : State) (h0 : Comp.freeCtr ∈ ks) (h1 : Comp.pwr ∈ ks) (h2 : Comp.intake
    ∈ ks) (h3 : Comp.mbx ∈ ks) (h4 : Comp.ctr ∈ ks) : blank ks (doFwStatus m s) = blank ks s := by
  simp [doFwStatus, *]

end Sys2Proof.Machine
end

