-- ==== Sys2Proof/Laws/FrameRtp.lean ====
section
/-! SUPPORT. Frames of the operations of Machine/Rtp.lean (see Frame.lean). -/

namespace Sys2Proof.Machine

open Sys2Proof.Safety

variable {ks : List Comp}

@[simp] theorem blank_rtpAnswer (w : Reg64) (st : RtpStatus) (s : State) (h0 : Comp.out ∈ ks) : blank ks (rtpAnswer w
    st s) = blank ks s := by
  simp [rtpAnswer, *]

@[simp] theorem blank_rtpFault (q : RtpReq) (kind : Byte) (region : Option Nat) (s : State) (h0 : Comp.out ∈ ks) (h1 :
    Comp.gates ∈ ks) (h2 : Comp.tly ∈ ks) (h3 : Comp.ctr ∈ ks) (h4 : Comp.log ∈ ks) : blank ks (rtpFault q kind region
    s) = blank ks s := by
  simp [rtpFault, *]

@[simp] theorem blank_sealedReport (q : RtpReq) (s : State) (h0 : Comp.gates ∈ ks) (h1 : Comp.tly ∈ ks) (h2 : Comp.ctr
    ∈ ks) (h3 : Comp.log ∈ ks) : blank ks (sealedReport q s) = blank ks s := by
  simp [sealedReport, *]

@[simp] theorem blank_rtpSealed (q : RtpReq) (s : State) (h0 : Comp.out ∈ ks) (h1 : Comp.gates ∈ ks) (h2 : Comp.tly ∈
    ks) (h3 : Comp.ctr ∈ ks) (h4 : Comp.log ∈ ks) : blank ks (rtpSealed q s) = blank ks s := by
  simp [rtpSealed, *]

@[simp] theorem blank_rearm (r : Nat) (s : State) (h0 : Comp.out ∈ ks) (h1 : Comp.freeCtr ∈ ks) (h2 : Comp.slc ∈ ks)
    (h3 : Comp.dlv ∈ ks) (h4 : Comp.gates ∈ ks) (h5 : Comp.twin ∈ ks) (h6 : Comp.tly ∈ ks) (h7 : Comp.ctr ∈ ks) (h8 :
    Comp.log ∈ ks) : blank ks (rearm r s) = blank ks s := by
  simp [rearm, *]

@[simp] theorem blank_consTo (r : Nat) (c : BitVec 31) (s : State) (h0 : Comp.dlv ∈ ks) (h1 : Comp.ctr ∈ ks) : blank
    ks (consTo r c s) = blank ks s := by
  simp [consTo, *]

@[simp] theorem blank_writeCons (r : Nat) (w : Reg64) (s : State) (hw : Wide ks) : blank ks (writeCons r w s) = blank
    ks s := by
  simp [writeCons, *]

@[simp] theorem blank_writeRunlvl (r : Nat) (w : Reg64) (s : State) (h0 : Comp.dlv ∈ ks) : blank ks (writeRunlvl r w
    s) = blank ks s := by
  simp [writeRunlvl, *]

@[simp] theorem blank_writeEoi (r : Nat) (w : Reg64) (s : State) (hw : Wide ks) : blank ks (writeEoi r w s) = blank ks
    s := by
  simp [writeEoi, *]

@[simp] theorem blank_acquire (n : Nat) (ten : BitVec 8) (q : Rq) (s : State) (h0 : Comp.ctr ∈ ks) (h1 : Comp.tack ∈
    ks) : blank ks (acquire n ten q s) = blank ks s := by
  simp [acquire, *]

@[simp] theorem blank_tackRead (n : Nat) (ten : BitVec 8) (q : Rq) (s : State) (h0 : Comp.ctr ∈ ks) (h1 : Comp.tack ∈
    ks) : blank ks (tackRead n ten q s).2 = blank ks s := by
  unfold tackRead
  repeat' first
    | with_reducible rfl
    | (simp [*]; done)
    | split
    | (refine (blank_foldl (fun _ _ => ?_) _ _).trans ?_)
    | dsimp only
    | simp [*]

@[simp] theorem blank_tackRel (n : Nat) (ten : BitVec 8) (q : Rq) (w : Reg64) (s : State) (h0 : Comp.tack ∈ ks) :
    blank ks (tackRel n ten q w s) = blank ks s := by
  simp [tackRel, *]

@[simp] theorem blank_tackLease (n : Nat) (ten : BitVec 8) (q : Rq) (w : DW) (s : State) (h0 : Comp.tack ∈ ks) : blank
    ks (tackLease n ten q w s) = blank ks s := by
  simp [tackLease, *]

@[simp] theorem blank_writeMbxCmd (m : Mbx) (a : Acc) (data : Reg64) (s : State) (h0 : Comp.pwr ∈ ks) (h1 :
    Comp.intake ∈ ks) (h2 : Comp.mbx ∈ ks) (h3 : Comp.ctr ∈ ks) : blank ks (writeMbxCmd m a data s) = blank ks s := by
  simp [writeMbxCmd, *]

@[simp] theorem blank_writeMbxArg (m : Mbx) (i : Nat) (a : Acc) (data : Reg64) (s : State) (h0 : Comp.mbx ∈ ks) :
    blank ks (writeMbxArg m i a data s) = blank ks s := by
  simp [writeMbxArg, *]

@[simp] theorem blank_freeAcked (e : Nat) (s : State) (h0 : Comp.log ∈ ks) : blank ks (freeAcked e s) = blank ks s :=
    by
  unfold freeAcked
  repeat' first
    | with_reducible rfl
    | (simp [*]; done)
    | split
    | (refine (blank_foldl (fun _ _ => ?_) _ _).trans ?_)
    | dsimp only
    | simp [*]

@[simp] theorem blank_writeErrBase (w : Reg64) (s : State) (h0 : Comp.dlv ∈ ks) (h1 : Comp.log ∈ ks) : blank ks
    (writeErrBase w s) = blank ks s := by
  simp [writeErrBase, *]

@[simp] theorem blank_writeErrCons (c : BitVec 31) (s : State) (h0 : Comp.log ∈ ks) : blank ks (writeErrCons c s) =
    blank ks s := by
  simp [writeErrCons, *]

@[simp] theorem blank_writeLcons (t : Nat) (c : BitVec 31) (s : State) (h0 : Comp.dlv ∈ ks) (h1 : Comp.tly ∈ ks) :
    blank ks (writeLcons t c s) = blank ks s := by
  simp [writeLcons, *]

@[simp] theorem blank_coreRestart (s : State) (h0 : Comp.pwr ∈ ks) (h1 : Comp.intake ∈ ks) (h2 : Comp.mbx ∈ ks) (h3 :
    Comp.fw ∈ ks) (h4 : Comp.ctr ∈ ks) : blank ks (coreRestart s) = blank ks s := by
  simp [coreRestart, *]

@[simp] theorem blank_maskGo (q : RtpReq) (s : State) (hw : Wide ks) : blank ks (maskGo q s) = blank ks s := by
  simp [maskGo, *]

@[simp] theorem blank_writeMaskOp (q : RtpReq) (s : State) (hw : Wide ks) : blank ks (writeMaskOp q s) = blank ks s :=
    by
  simp [writeMaskOp, *]

@[simp] theorem blank_installEntry (k : Nat) (e : SrcEntry) (s : State) (h0 : Comp.slc ∈ ks) : blank ks (installEntry
    k e s) = blank ks s := by
  simp [installEntry, *]

@[simp] theorem blank_srcResult (v : BitVec 2) (s : State) (h0 : Comp.slc ∈ ks) : blank ks (srcResult v s) = blank ks
    s := by
  simp [srcResult, *]

@[simp] theorem blank_srcGo (q : RtpReq) (s : State) (hw : Wide ks) : blank ks (srcGo q s) = blank ks s := by
  unfold srcGo
  repeat' first
    | with_reducible rfl
    | (simp [*]; done)
    | split
    | (refine (blank_foldl (fun _ _ => ?_) _ _).trans ?_)
    | dsimp only
    | simp [*]

@[simp] theorem blank_rstgResult (v : BitVec 2) (s : State) (h0 : Comp.dlv ∈ ks) : blank ks (rstgResult v s) = blank
    ks s := by
  simp [rstgResult, *]

@[simp] theorem blank_installExpert (r : Nat) (e : RingEnt) (s : State) (h0 : Comp.intake ∈ ks) (h1 : Comp.slc ∈ ks)
    (h2 : Comp.dlv ∈ ks) (h3 : Comp.twin ∈ ks) (h4 : Comp.relay ∈ ks) (h5 : Comp.tly ∈ ks) (h6 : Comp.ctr ∈ ks) :
    blank ks (installExpert r e s) = blank ks s := by
  simp [installExpert, *]

@[simp] theorem blank_rstgGo (q : RtpReq) (s : State) (hw : Wide ks) : blank ks (rstgGo q s) = blank ks s := by
  unfold rstgGo
  repeat' first
    | with_reducible rfl
    | (simp [*]; done)
    | split
    | (refine (blank_foldl (fun _ _ => ?_) _ _).trans ?_)
    | dsimp only
    | simp [*]

@[simp] theorem blank_stageRegion (k : Nat) (a : Acc) (data : Reg64) (s : State) (h0 : Comp.gates ∈ ks) : blank ks
    (stageRegion k a data s) = blank ks s := by
  unfold stageRegion
  repeat' first
    | with_reducible rfl
    | (simp [*]; done)
    | split
    | (refine (blank_foldl (fun _ _ => ?_) _ _).trans ?_)
    | dsimp only
    | simp [*]

@[simp] theorem blank_writeCounter (off : Nat) (a : Acc) (data : Reg64) (s : State) (h0 : Comp.ctr ∈ ks) : blank ks
    (writeCounter off a data s) = blank ks s := by
  simp [writeCounter, *]

@[simp] theorem blank_writePctr (i : Nat) (a : Acc) (data : Reg64) (s : State) (h0 : Comp.ctr ∈ ks) : blank ks
    (writePctr i a data s) = blank ks s := by
  simp [writePctr, *]

@[simp] theorem blank_onLow (a : Acc) (f : State → State) (s : State)  (hf : ∀ x0, blank ks (f x0) = blank ks x0) :
    blank ks (onLow a f s) = blank ks s := by
  simp [onLow, *]

@[simp] theorem blank_writeReg (q : RtpReq) (ten : BitVec 8) (r : Reg) (s : State) (hw : Wide ks) (ht : Comp.tack ∈
    ks) : blank ks (writeReg q ten r s) = blank ks s := by
  unfold writeReg
  repeat' first
    | with_reducible rfl
    | (simp [*]; done)
    | (apply blank_onLow <;> first | assumption | intros)
    | split
    | (refine (blank_foldl (fun _ _ => ?_) _ _).trans ?_)
    | dsimp only
    | simp [*]

@[simp] theorem blank_readActs (q : RtpReq) (ten : BitVec 8) (r : Reg) (s : State) (h0 : Comp.ctr ∈ ks) (h1 :
    Comp.tack ∈ ks) : blank ks (readActs q ten r s).2 = blank ks s := by
  unfold readActs
  repeat' first
    | with_reducible rfl
    | (simp [*]; done)
    | split
    | (refine (blank_foldl (fun _ _ => ?_) _ _).trans ?_)
    | dsimp only
    | simp [*]

@[simp] theorem blank_rtpTaken (s : State) (h0 : Comp.ctr ∈ ks) : blank ks (rtpTaken s) = blank ks s := by
  simp [rtpTaken, *]

@[simp] theorem blank_rtpServe (q : RtpReq) (ten : BitVec 8) (r : Reg) (s : State) (hw : Wide ks) (ht : Comp.tack ∈
    ks) : blank ks (rtpServe q ten r s) = blank ks s := by
  simp [rtpServe, *]

@[simp] theorem blank_setRtpHeld (l : List RtpReq) (s : State) (h0 : Comp.gates ∈ ks) : blank ks (setRtpHeld l s) =
    blank ks s := by
  unfold setRtpHeld
  repeat' first
    | with_reducible rfl
    | (simp [*]; done)
    | split
    | (refine (blank_foldl (fun _ _ => ?_) _ _).trans ?_)
    | dsimp only
    | simp [*]

@[simp] theorem blank_rtpAdmitted (q : RtpReq) (k : Nat) (r : Reg) (s : State) (hw : Wide ks) (ht : Comp.tack ∈ ks) :
    blank ks (rtpAdmitted q k r s) = blank ks s := by
  unfold rtpAdmitted
  repeat' first
    | with_reducible rfl
    | (simp [*]; done)
    | split
    | (refine (blank_foldl (fun _ _ => ?_) _ _).trans ?_)
    | dsimp only
    | simp [*]

@[simp] theorem blank_rtpOne (q : RtpReq) (s : State) (hw : Wide ks) (ht : Comp.tack ∈ ks) : blank ks (rtpOne q s) =
    blank ks s := by
  unfold rtpOne
  repeat' first
    | with_reducible rfl
    | (simp [*]; done)
    | split
    | (refine (blank_foldl (fun _ _ => ?_) _ _).trans ?_)
    | dsimp only
    | simp [*]

@[simp] theorem blank_doRtp (q : RtpReq) (s : State) (hw : Wide ks) (ht : Comp.tack ∈ ks) : blank ks (doRtp q s) =
    blank ks s := by
  unfold doRtp
  repeat' first
    | with_reducible rfl
    | (simp [*]; done)
    | split
    | (refine (blank_foldl (fun _ _ => ?_) _ _).trans ?_)
    | dsimp only
    | simp [*]

@[simp] theorem blank_serveRtp (fuel : Nat) (s : State) (hw : Wide ks) (ht : Comp.tack ∈ ks) : blank ks (serveRtp fuel
    s) = blank ks s := by
  induction fuel generalizing s with
  | zero => rfl
  | succ n ih =>
    unfold serveRtp
    repeat' first
      | with_reducible rfl
      | (simp [*]; done)
      | split
      | dsimp only
      | simp [*]

@[simp] theorem blank_rtpGoes (s : State) (hw : Wide ks) (ht : Comp.tack ∈ ks) : blank ks (rtpGoes s) = blank ks s :=
    by
  unfold rtpGoes
  repeat' first
    | with_reducible rfl
    | (simp [*]; done)
    | split
    | (refine (blank_foldl (fun _ _ => ?_) _ _).trans ?_)
    | dsimp only
    | simp [*]

end Sys2Proof.Machine
end

