-- ==== Sys2Proof/Laws/FrameReady.lean ====
section
/-! SUPPORT. Frames of the operations of Machine/Ready.lean (see Frame.lean). -/

namespace Sys2Proof.Machine

open Sys2Proof.Safety

variable {ks : List Comp}

@[simp] theorem blank_domainServes (d : Nat) (s : State) (hw : Wide ks) (ht : Comp.tack ∈ ks) : blank ks (domainServes
    d s) = blank ks s := by
  simp [domainServes, *]

@[simp] theorem blank_doDomainReady (d : Nat) (s : State) (hw : Wide ks) (ht : Comp.tack ∈ ks) : blank ks
    (doDomainReady d s) = blank ks s := by
  simp [doDomainReady, *]

@[simp] theorem blank_doSliceIdleGate (sl : Nat) (s : State) (h0 : Comp.pwr ∈ ks) : blank ks (doSliceIdleGate sl s) =
    blank ks s := by
  simp [doSliceIdleGate, *]

@[simp] theorem blank_doWarmResetRelease (x : Straps) (s : State) (hw : Wide ks) (ht : Comp.tack ∈ ks) : blank ks
    (doWarmResetRelease x s) = blank ks s := by
  simp [doWarmResetRelease, *]

@[simp] theorem blank_doSupplyOkRise (x : Straps) (s : State) (hw : Wide ks) (ht : Comp.tack ∈ ks) : blank ks
    (doSupplyOkRise x s) = blank ks s := by
  unfold doSupplyOkRise
  repeat' first
    | with_reducible rfl
    | (simp [*]; done)
    | split
    | (refine (blank_foldl (fun _ _ => ?_) _ _).trans ?_)
    | dsimp only
    | simp [*]

@[simp] theorem blank_doCaptureEntry (s : State) (hw : Wide ks) (ht : Comp.tack ∈ ks) : blank ks (doCaptureEntry s) =
    blank ks s := by
  simp [doCaptureEntry, *]

end Sys2Proof.Machine
end

