-- ==== Sys2Proof/Laws/FrameSeamLink.lean ====
section
/-! SUPPORT. Frames of the operations of Machine/SeamLink.lean (see Frame.lean). -/

namespace Sys2Proof.Machine

open Sys2Proof.Safety

variable {ks : List Comp}

@[simp] theorem blank_toldDown (l : Seam) (s : State) (hw : Wide ks) : blank ks (toldDown l s) = blank ks s := by
  unfold toldDown
  repeat' first
    | with_reducible rfl
    | (simp [*]; done)
    | split
    | (refine (blank_foldl (fun _ _ => ?_) _ _).trans ?_)
    | dsimp only
    | simp [*]

@[simp] theorem blank_rinseLink (l : Seam) (cr cs : BitVec 32) (s : State) (h0 : Comp.link ∈ ks) (h1 : Comp.ctr ∈ ks)
    (h2 : Comp.log ∈ ks) : blank ks (rinseLink l cr cs s) = blank ks s := by
  simp [rinseLink, *]

@[simp] theorem blank_freshSession (l : Seam) (cr cs : BitVec 32) (s : State) (h0 : Comp.link ∈ ks) : blank ks
    (freshSession l cr cs s) = blank ks s := by
  simp [freshSession, *]

@[simp] theorem blank_toldUp (l : Seam) (kept : Bool) (s : State) (h0 : Comp.freeCtr ∈ ks) (h1 : Comp.pwr ∈ ks) (h2 :
    Comp.intake ∈ ks) (h3 : Comp.mbx ∈ ks) (h4 : Comp.twin ∈ ks) (h5 : Comp.link ∈ ks) (h6 : Comp.relay ∈ ks) (h7 :
    Comp.ctr ∈ ks) (h8 : Comp.log ∈ ks) : blank ks (toldUp l kept s) = blank ks s := by
  unfold toldUp
  repeat' first
    | with_reducible rfl
    | (simp [*]; done)
    | split
    | (refine (blank_foldl (fun _ _ => ?_) _ _).trans ?_)
    | dsimp only
    | simp [*]

@[simp] theorem blank_completeTraining (l : Seam) (p : BitVec 960) (s : State) (h0 : Comp.freeCtr ∈ ks) (h1 : Comp.pwr
    ∈ ks) (h2 : Comp.intake ∈ ks) (h3 : Comp.mbx ∈ ks) (h4 : Comp.twin ∈ ks) (h5 : Comp.link ∈ ks) (h6 : Comp.relay ∈
    ks) (h7 : Comp.ctr ∈ ks) (h8 : Comp.log ∈ ks) : blank ks (completeTraining l p s) = blank ks s := by
  unfold completeTraining
  repeat' first
    | with_reducible rfl
    | (simp [*]; done)
    | split
    | (refine (blank_foldl (fun _ _ => ?_) _ _).trans ?_)
    | dsimp only
    | simp [*]

@[simp] theorem blank_trainFlit (l : Seam) (p : BitVec 960) (s : State) (h0 : Comp.freeCtr ∈ ks) (h1 : Comp.pwr ∈ ks)
    (h2 : Comp.intake ∈ ks) (h3 : Comp.mbx ∈ ks) (h4 : Comp.twin ∈ ks) (h5 : Comp.link ∈ ks) (h6 : Comp.relay ∈ ks)
    (h7 : Comp.ctr ∈ ks) (h8 : Comp.log ∈ ks) : blank ks (trainFlit l p s) = blank ks s := by
  simp [trainFlit, *]

@[simp] theorem blank_onTrain (l : Seam) (p : BitVec 960) (s : State) (h0 : Comp.freeCtr ∈ ks) (h1 : Comp.pwr ∈ ks)
    (h2 : Comp.intake ∈ ks) (h3 : Comp.mbx ∈ ks) (h4 : Comp.twin ∈ ks) (h5 : Comp.link ∈ ks) (h6 : Comp.relay ∈ ks)
    (h7 : Comp.ctr ∈ ks) (h8 : Comp.log ∈ ks) : blank ks (onTrain l p s) = blank ks s := by
  unfold onTrain
  repeat' first
    | with_reducible rfl
    | (simp [*]; done)
    | split
    | (refine (blank_foldl (fun _ _ => ?_) _ _).trans ?_)
    | dsimp only
    | simp [*]

@[simp] theorem blank_onNak (l : Seam) (n : BitVec 12) (s : State) (h0 : Comp.link ∈ ks) : blank ks (onNak l n s) =
    blank ks s := by
  unfold onNak
  repeat' first
    | with_reducible rfl
    | (simp [*]; done)
    | split
    | (refine (blank_foldl (fun _ _ => ?_) _ _).trans ?_)
    | dsimp only
    | simp [*]

@[simp] theorem blank_onDarn (l : Seam) (p : BitVec 960) (s : State) (h0 : Comp.link ∈ ks) (h1 : Comp.ctr ∈ ks) :
    blank ks (onDarn l p s) = blank ks s := by
  simp [onDarn, *]

@[simp] theorem blank_onLaneDrop (set : Byte) (s : State) (h0 : Comp.twin ∈ ks) : blank ks (onLaneDrop set s) = blank
    ks s := by
  simp [onLaneDrop, *]

@[simp] theorem blank_onLaneAdd (set : Byte) (s : State) (h0 : Comp.twin ∈ ks) : blank ks (onLaneAdd set s) = blank ks
    s := by
  unfold onLaneAdd
  repeat' first
    | with_reducible rfl
    | (simp [*]; done)
    | split
    | (refine (blank_foldl (fun _ _ => ?_) _ _).trans ?_)
    | dsimp only
    | simp [*]

@[simp] theorem blank_onCtl (l : Seam) (p : BitVec 960) (s : State) (hw : Wide ks) : blank ks (onCtl l p s) = blank ks
    s := by
  unfold onCtl
  repeat' first
    | with_reducible rfl
    | (simp [*]; done)
    | split
    | (refine (blank_foldl (fun _ _ => ?_) _ _).trans ?_)
    | dsimp only
    | simp [*]

@[simp] theorem blank_takeAhead (l : Seam) (j : Nat) (f : BitVec 1024) (s : State) (h0 : Comp.link ∈ ks) (h1 :
    Comp.ctr ∈ ks) : blank ks (takeAhead l j f s) = blank ks s := by
  simp [takeAhead, *]

@[simp] theorem blank_goDown (l : Seam) (s : State) (hw : Wide ks) : blank ks (goDown l s) = blank ks s := by
  simp [goDown, *]

@[simp] theorem blank_retrainFailed (l : Seam) (s : State) (hw : Wide ks) : blank ks (retrainFailed l s) = blank ks s
    := by
  unfold retrainFailed
  repeat' first
    | with_reducible rfl
    | (simp [*]; done)
    | split
    | (refine (blank_foldl (fun _ _ => ?_) _ _).trans ?_)
    | dsimp only
    | simp [*]

@[simp] theorem blank_badFlit (l : Seam) (s : State) (hw : Wide ks) : blank ks (badFlit l s) = blank ks s := by
  simp [badFlit, *]

@[simp] theorem blank_headerOnly (l : Seam) (f : BitVec 1024) (s : State) (h0 : Comp.link ∈ ks) : blank ks (headerOnly
    l f s) = blank ks s := by
  unfold headerOnly
  repeat' first
    | with_reducible rfl
    | (simp [*]; done)
    | split
    | (refine (blank_foldl (fun _ _ => ?_) _ _).trans ?_)
    | dsimp only
    | simp [*]

@[simp] theorem blank_receive (l : Seam) (ok : Bool) (f : BitVec 1024) (s0 : State) (hw : Wide ks) : blank ks (receive
    l ok f s0) = blank ks s0 := by
  unfold receive
  repeat' first
    | with_reducible rfl
    | (simp [*]; done)
    | split
    | (refine (blank_foldl (fun _ _ => ?_) _ _).trans ?_)
    | dsimp only
    | simp [*]

@[simp] theorem blank_countWord (w : LaneWord) (s : State) (h0 : Comp.twin ∈ ks) (h1 : Comp.ctr ∈ ks) : blank ks
    (countWord w s) = blank ks s := by
  simp [countWord, *]

@[simp] theorem blank_trainWord (w : LaneWord) (s0 : State) (h0 : Comp.twin ∈ ks) : blank ks (trainWord w s0) = blank
    ks s0 := by
  simp [trainWord, *]

@[simp] theorem blank_setRxWords (n : Nat) (l : List (BitVec 272)) (s : State) (h0 : Comp.twin ∈ ks) : blank ks
    (setRxWords n l s) = blank ks s := by
  unfold setRxWords
  repeat' first
    | with_reducible rfl
    | (simp [*]; done)
    | split
    | (refine (blank_foldl (fun _ _ => ?_) _ _).trans ?_)
    | dsimp only
    | simp [*]

@[simp] theorem blank_followMarker (d : Byte) (m : BitVec 272) (s : State) (h0 : Comp.twin ∈ ks) : blank ks
    (followMarker d m s) = blank ks s := by
  unfold followMarker
  repeat' first
    | with_reducible rfl
    | (simp [*]; done)
    | split
    | (refine (blank_foldl (fun _ _ => ?_) _ _).trans ?_)
    | dsimp only
    | simp [*]

@[simp] theorem blank_addQuarter (q : BitVec 256) (ok : Bool) (s : State) (hw : Wide ks) : blank ks (addQuarter q ok
    s) = blank ks s := by
  unfold addQuarter
  repeat' first
    | with_reducible rfl
    | (simp [*]; done)
    | split
    | (refine (blank_foldl (fun _ _ => ?_) _ _).trans ?_)
    | dsimp only
    | simp [*]

@[simp] theorem blank_assemble (fuel : Nat) (s : State) (hw : Wide ks) : blank ks (assemble fuel s) = blank ks s := by
  induction fuel generalizing s with
  | zero => rfl
  | succ n ih =>
    unfold assemble
    repeat' first
      | with_reducible rfl
      | (simp [*]; done)
      | split
      | dsimp only
      | simp [*]

@[simp] theorem blank_takeWord (s : State) (w : LaneWord) (hw : Wide ks) : blank ks (takeWord s w) = blank ks s := by
  unfold takeWord
  repeat' first
    | with_reducible rfl
    | (simp [*]; done)
    | split
    | (refine (blank_foldl (fun _ _ => ?_) _ _).trans ?_)
    | dsimp only
    | simp [*]

@[simp] theorem blank_receiveLanes (q0 q1 q2 q3 : LaneWord) (s : State) (hw : Wide ks) : blank ks (receiveLanes q0 q1
    q2 q3 s) = blank ks s := by
  simp [receiveLanes, *]

@[simp] theorem blank_doFlitReceived (f : RxFlit) (s : State) (hw : Wide ks) : blank ks (doFlitReceived f s) = blank
    ks s := by
  unfold doFlitReceived
  repeat' first
    | with_reducible rfl
    | (simp [*]; done)
    | split
    | (refine (blank_foldl (fun _ _ => ?_) _ _).trans ?_)
    | dsimp only
    | simp [*]

@[simp] theorem blank_trainRound (set : Byte) (s : State) (h0 : Comp.out ∈ ks) (h1 : Comp.twin ∈ ks) : blank ks
    (trainRound set s) = blank ks s := by
  simp [trainRound, *]

@[simp] theorem blank_sendTraining (l : Seam) (s : State) (h0 : Comp.out ∈ ks) (h1 : Comp.twin ∈ ks) (h2 : Comp.link ∈
    ks) (h3 : Comp.ctr ∈ ks) : blank ks (sendTraining l s) = blank ks s := by
  unfold sendTraining
  repeat' first
    | with_reducible rfl
    | (simp [*]; done)
    | split
    | (refine (blank_foldl (fun _ _ => ?_) _ _).trans ?_)
    | dsimp only
    | simp [*]

theorem blank_sendNew {l : Seam} {s t : State} (h : sendNew l s = some t) (h0 : Comp.out ∈ ks) (h1 : Comp.twin ∈ ks)
    (h2 : Comp.link ∈ ks) (h3 : Comp.ctr ∈ ks) : blank ks t = blank ks s := by
  unfold sendNew at h
  repeat' first
    | (cases h; done)
    | (cases h; simp [*]; done)
    | split at h
    | dsimp only at h

@[simp] theorem blank_sendIdle (l : Seam) (s : State) (h0 : Comp.out ∈ ks) (h1 : Comp.twin ∈ ks) (h2 : Comp.link ∈ ks)
    (h3 : Comp.ctr ∈ ks) : blank ks (sendIdle l s) = blank ks s := by
  simp [sendIdle, *]

@[simp] theorem blank_sendNext (l : Seam) (s : State) (h0 : Comp.out ∈ ks) (h1 : Comp.twin ∈ ks) (h2 : Comp.link ∈ ks)
    (h3 : Comp.ctr ∈ ks) : blank ks (sendNext l s) = blank ks s := by
  unfold sendNext
  repeat' first
    | with_reducible rfl
    | (simp [*]; done)
    | (exact blank_sendNew (by assumption) (by assumption) (by assumption) (by assumption) (by assumption))
    | split
    | (refine (blank_foldl (fun _ _ => ?_) _ _).trans ?_)
    | dsimp only
    | simp [*]

@[simp] theorem blank_sendDropped (l : Seam) (s : State) (h0 : Comp.out ∈ ks) : blank ks (sendDropped l s) = blank ks
    s := by
  unfold sendDropped
  repeat' first
    | with_reducible rfl
    | (simp [*]; done)
    | split
    | (refine (blank_foldl (fun _ _ => ?_) _ _).trans ?_)
    | dsimp only
    | simp [*]

@[simp] theorem blank_transmit (l : Seam) (s0 : State) (h0 : Comp.out ∈ ks) (h1 : Comp.twin ∈ ks) (h2 : Comp.link ∈
    ks) (h3 : Comp.ctr ∈ ks) (h4 : Comp.log ∈ ks) : blank ks (transmit l s0) = blank ks s0 := by
  unfold transmit
  repeat' first
    | with_reducible rfl
    | (simp [*]; done)
    | split
    | (refine (blank_foldl (fun _ _ => ?_) _ _).trans ?_)
    | dsimp only
    | simp [*]

@[simp] theorem blank_doFlitTransmit (l : Seam) (s : State) (h0 : Comp.out ∈ ks) (h1 : Comp.twin ∈ ks) (h2 : Comp.link
    ∈ ks) (h3 : Comp.ctr ∈ ks) (h4 : Comp.log ∈ ks) : blank ks (doFlitTransmit l s) = blank ks s := by
  simp [doFlitTransmit, *]

@[simp] theorem blank_doReplayTimeout (l : Seam) (seq : BitVec 12) (s : State) (h0 : Comp.twin ∈ ks) (h1 : Comp.link ∈
    ks) (h2 : Comp.ctr ∈ ks) (h3 : Comp.log ∈ ks) : blank ks (doReplayTimeout l seq s) = blank ks s := by
  unfold doReplayTimeout
  repeat' first
    | with_reducible rfl
    | (simp [*]; done)
    | split
    | (refine (blank_foldl (fun _ _ => ?_) _ _).trans ?_)
    | dsimp only
    | simp [*]

@[simp] theorem blank_doAckTimer (l : Seam) (s : State) (h0 : Comp.out ∈ ks) (h1 : Comp.twin ∈ ks) (h2 : Comp.link ∈
    ks) (h3 : Comp.ctr ∈ ks) (h4 : Comp.log ∈ ks) : blank ks (doAckTimer l s) = blank ks s := by
  simp [doAckTimer, *]

@[simp] theorem blank_doDarnSend (l : Seam) (s : State) (h0 : Comp.out ∈ ks) (h1 : Comp.twin ∈ ks) (h2 : Comp.link ∈
    ks) (h3 : Comp.ctr ∈ ks) : blank ks (doDarnSend l s) = blank ks s := by
  simp [doDarnSend, *]

@[simp] theorem blank_doHeartbeatSend (s : State) (h0 : Comp.out ∈ ks) (h1 : Comp.twin ∈ ks) (h2 : Comp.link ∈ ks) (h3
    : Comp.ctr ∈ ks) : blank ks (doHeartbeatSend s) = blank ks s := by
  simp [doHeartbeatSend, *]

@[simp] theorem blank_doRetrainStart (l : Seam) (s : State) (h0 : Comp.twin ∈ ks) (h1 : Comp.link ∈ ks) (h2 : Comp.ctr
    ∈ ks) (h3 : Comp.log ∈ ks) : blank ks (doRetrainStart l s) = blank ks s := by
  simp [doRetrainStart, *]

@[simp] theorem blank_doRetrainFail (l : Seam) (s : State) (hw : Wide ks) : blank ks (doRetrainFail l s) = blank ks s
    := by
  simp [doRetrainFail, *]

@[simp] theorem blank_doGraceEndRinse (l : Seam) (s : State) (h0 : Comp.twin ∈ ks) (h1 : Comp.link ∈ ks) (h2 :
    Comp.ctr ∈ ks) (h3 : Comp.log ∈ ks) : blank ks (doGraceEndRinse l s) = blank ks s := by
  simp [doGraceEndRinse, *]

@[simp] theorem blank_deskewDrop (n : Nat) (s : State) (h0 : Comp.twin ∈ ks) (h1 : Comp.ctr ∈ ks) (h2 : Comp.log ∈ ks)
    : blank ks (deskewDrop n s) = blank ks s := by
  simp [deskewDrop, *]

@[simp] theorem blank_doLaneDrop (n : Nat) (s : State) (h0 : Comp.twin ∈ ks) (h1 : Comp.link ∈ ks) (h2 : Comp.ctr ∈
    ks) (h3 : Comp.log ∈ ks) : blank ks (doLaneDrop n s) = blank ks s := by
  unfold doLaneDrop
  repeat' first
    | with_reducible rfl
    | (simp [*]; done)
    | split
    | (refine (blank_foldl (fun _ _ => ?_) _ _).trans ?_)
    | dsimp only
    | simp [*]

@[simp] theorem blank_addLane (n : Nat) (s : State) (h0 : Comp.twin ∈ ks) (h1 : Comp.link ∈ ks) (h2 : Comp.ctr ∈ ks)
    (h3 : Comp.log ∈ ks) : blank ks (addLane n s) = blank ks s := by
  unfold addLane
  repeat' first
    | with_reducible rfl
    | (simp [*]; done)
    | split
    | (refine (blank_foldl (fun _ _ => ?_) _ _).trans ?_)
    | dsimp only
    | simp [*]

@[simp] theorem blank_doLaneAdd (n : Nat) (s : State) (h0 : Comp.twin ∈ ks) (h1 : Comp.link ∈ ks) (h2 : Comp.ctr ∈ ks)
    (h3 : Comp.log ∈ ks) : blank ks (doLaneAdd n s) = blank ks s := by
  simp [doLaneAdd, *]

@[simp] theorem blank_doSmtLnRdyRise (n : Nat) (s : State) (h0 : Comp.out ∈ ks) (h1 : Comp.twin ∈ ks) : blank ks
    (doSmtLnRdyRise n s) = blank ks s := by
  simp [doSmtLnRdyRise, *]

@[simp] theorem blank_doSessionOpen (blk : BitVec 11) (strap : Bool) (s : State) (h0 : Comp.out ∈ ks) (h1 : Comp.twin
    ∈ ks) (h2 : Comp.link ∈ ks) (h3 : Comp.ctr ∈ ks) (h4 : Comp.log ∈ ks) : blank ks (doSessionOpen blk strap s) =
    blank ks s := by
  simp [doSessionOpen, *]

@[simp] theorem blank_doSessionClose (blk : BitVec 11) (strap : Bool) (s : State) (h0 : Comp.out ∈ ks) (h1 : Comp.twin
    ∈ ks) (h2 : Comp.link ∈ ks) (h3 : Comp.ctr ∈ ks) : blank ks (doSessionClose blk strap s) = blank ks s := by
  simp [doSessionClose, *]

end Sys2Proof.Machine
end

