-- ==== Sys2Proof/Laws/FrameRelay.lean ====
section
/-! SUPPORT. Frames of the operations of Machine/Relay.lean (see Frame.lean). -/

namespace Sys2Proof.Machine

open Sys2Proof.Safety

variable {ks : List Comp}

@[simp] theorem blank_launchedRemote (q : Req) (s : State) (h0 : Comp.intake ∈ ks) (h1 : Comp.slc ∈ ks) (h2 : Comp.dlv
    ∈ ks) (h3 : Comp.twin ∈ ks) (h4 : Comp.ctr ∈ ks) : blank ks (launchedRemote q s) = blank ks s := by
  unfold launchedRemote
  repeat' first
    | with_reducible rfl
    | (simp [*]; done)
    | split
    | (refine (blank_foldl (fun _ _ => ?_) _ _).trans ?_)
    | dsimp only
    | simp [*]

@[simp] theorem blank_launchBundle (q : Req) (b : BitVec 11) (r : BitVec 15) (s : State) (h0 : Comp.intake ∈ ks) (h1 :
    Comp.slc ∈ ks) (h2 : Comp.dlv ∈ ks) (h3 : Comp.twin ∈ ks) (h4 : Comp.link ∈ ks) (h5 : Comp.relay ∈ ks) (h6 :
    Comp.ctr ∈ ks) : blank ks (launchBundle q b r s) = blank ks s := by
  simp [launchBundle, *]

@[simp] theorem blank_doBundleLaunch (s : State) (hw : Wide ks) : blank ks (doBundleLaunch s) = blank ks s := by
  unfold doBundleLaunch
  repeat' first
    | with_reducible rfl
    | (simp [*]; done)
    | split
    | (refine (blank_foldl (fun _ _ => ?_) _ _).trans ?_)
    | dsimp only
    | simp [*]

@[simp] theorem blank_noteAccepted (l : Seam) (q : BitVec 32) (s : State) (h0 : Comp.relay ∈ ks) : blank ks
    (noteAccepted l q s) = blank ks s := by
  simp [noteAccepted, *]

@[simp] theorem blank_seeBseq (l : Seam) (q : BitVec 32) (s : State) (h0 : Comp.relay ∈ ks) : blank ks (seeBseq l q s)
    = blank ks s := by
  unfold seeBseq
  repeat' first
    | with_reducible rfl
    | (simp [*]; done)
    | split
    | (refine (blank_foldl (fun _ _ => ?_) _ _).trans ?_)
    | dsimp only
    | simp [*]

@[simp] theorem blank_noteRefused (l : Seam) (q : BitVec 32) (s : State) (h0 : Comp.relay ∈ ks) : blank ks
    (noteRefused l q s) = blank ks s := by
  unfold noteRefused
  repeat' first
    | with_reducible rfl
    | (simp [*]; done)
    | split
    | (refine (blank_foldl (fun _ _ => ?_) _ _).trans ?_)
    | dsimp only
    | simp [*]

@[simp] theorem blank_noteCame (l : Seam) (q : BitVec 32) (s : State) (h0 : Comp.relay ∈ ks) : blank ks (noteCame l q
    s) = blank ks s := by
  unfold noteCame
  repeat' first
    | with_reducible rfl
    | (simp [*]; done)
    | split
    | (refine (blank_foldl (fun _ _ => ?_) _ _).trans ?_)
    | dsimp only
    | simp [*]

@[simp] theorem blank_answerSession (l : Seam) (m : SMsg) (s : State) (h0 : Comp.link ∈ ks) : blank ks (answerSession
    l m s) = blank ks s := by
  simp [answerSession, *]

@[simp] theorem blank_ackBundle (l : Seam) (q : BitVec 32) (s : State) (h0 : Comp.link ∈ ks) : blank ks (ackBundle l q
    s) = blank ks s := by
  simp [ackBundle, *]

@[simp] theorem blank_rejectBundle (l : Seam) (b : RxBundle) (s : State) (h0 : Comp.link ∈ ks) (h1 : Comp.relay ∈ ks)
    (h2 : Comp.ctr ∈ ks) (h3 : Comp.log ∈ ks) : blank ks (rejectBundle l b s) = blank ks s := by
  simp [rejectBundle, *]

@[simp] theorem blank_takeBundle (l : Seam) (isSealed : Bool) (b : RxBundle) (s : State) (h0 : Comp.link ∈ ks) (h1 :
    Comp.relay ∈ ks) (h2 : Comp.ctr ∈ ks) (h3 : Comp.log ∈ ks) : blank ks (takeBundle l isSealed b s) = blank ks s :=
    by
  unfold takeBundle
  repeat' first
    | with_reducible rfl
    | (simp [*]; done)
    | split
    | (refine (blank_foldl (fun _ _ => ?_) _ _).trans ?_)
    | dsimp only
    | simp [*]

@[simp] theorem blank_refuseBundle (l : Seam) (b : BitVec 2880) (s : State) (h0 : Comp.link ∈ ks) (h1 : Comp.relay ∈
    ks) (h2 : Comp.ctr ∈ ks) (h3 : Comp.log ∈ ks) : blank ks (refuseBundle l b s) = blank ks s := by
  simp [refuseBundle, *]

@[simp] theorem blank_doBundleReceived (blk : BitVec 11) (strap : Bool) (s : State) (h0 : Comp.link ∈ ks) (h1 :
    Comp.relay ∈ ks) (h2 : Comp.ctr ∈ ks) (h3 : Comp.log ∈ ks) : blank ks (doBundleReceived blk strap s) = blank ks s
    := by
  unfold doBundleReceived
  repeat' first
    | with_reducible rfl
    | (simp [*]; done)
    | split
    | (refine (blank_foldl (fun _ _ => ?_) _ _).trans ?_)
    | dsimp only
    | simp [*]

@[simp] theorem blank_pushRelayed (q : Req) (s : State) (h0 : Comp.dlv ∈ ks) : blank ks (pushRelayed q s) = blank ks s
    := by
  simp [pushRelayed, *]

@[simp] theorem blank_doInboxRelease (ring : BitVec 15) (s : State) (h0 : Comp.dlv ∈ ks) (h1 : Comp.relay ∈ ks) :
    blank ks (doInboxRelease ring s) = blank ks s := by
  unfold doInboxRelease
  repeat' first
    | with_reducible rfl
    | (simp [*]; done)
    | split
    | (refine (blank_foldl (fun _ _ => ?_) _ _).trans ?_)
    | dsimp only
    | simp [*]

@[simp] theorem blank_doRelayDiscard (ring : BitVec 15) (s : State) (h0 : Comp.relay ∈ ks) (h1 : Comp.ctr ∈ ks) (h2 :
    Comp.log ∈ ks) : blank ks (doRelayDiscard ring s) = blank ks s := by
  unfold doRelayDiscard
  repeat' first
    | with_reducible rfl
    | (simp [*]; done)
    | split
    | (refine (blank_foldl (fun _ _ => ?_) _ _).trans ?_)
    | dsimp only
    | simp [*]

@[simp] theorem blank_deferredMirror (s : State) (src : BitVec 18) (h0 : Comp.twin ∈ ks) (h1 : Comp.ctr ∈ ks) : blank
    ks (deferredMirror s src) = blank ks s := by
  simp [deferredMirror, *]

@[simp] theorem blank_doBundleAckReceived (blk : BitVec 11) (strap : Bool) (s : State) (hw : Wide ks) : blank ks
    (doBundleAckReceived blk strap s) = blank ks s := by
  unfold doBundleAckReceived
  repeat' first
    | with_reducible rfl
    | (simp [*]; done)
    | split
    | (refine (blank_foldl (fun _ _ => ?_) _ _).trans ?_)
    | dsimp only
    | simp [*]

@[simp] theorem blank_doBundleResendReceived (blk : BitVec 11) (strap : Bool) (s : State) (hw : Wide ks) : blank ks
    (doBundleResendReceived blk strap s) = blank ks s := by
  unfold doBundleResendReceived
  repeat' first
    | with_reducible rfl
    | (simp [*]; done)
    | split
    | (refine (blank_foldl (fun _ _ => ?_) _ _).trans ?_)
    | dsimp only
    | simp [*]

@[simp] theorem blank_doRelayPathFail (blk : BitVec 11) (strap : Bool) (s : State) (hw : Wide ks) : blank ks
    (doRelayPathFail blk strap s) = blank ks s := by
  simp [doRelayPathFail, *]

@[simp] theorem blank_doRelayPathRetry (blk : BitVec 11) (strap : Bool) (s : State) (h0 : Comp.out ∈ ks) (h1 :
    Comp.mbx ∈ ks) (h2 : Comp.twin ∈ ks) (h3 : Comp.link ∈ ks) (h4 : Comp.relay ∈ ks) (h5 : Comp.ctr ∈ ks) (h6 :
    Comp.log ∈ ks) : blank ks (doRelayPathRetry blk strap s) = blank ks s := by
  unfold doRelayPathRetry
  repeat' first
    | with_reducible rfl
    | (simp [*]; done)
    | split
    | (refine (blank_foldl (fun _ _ => ?_) _ _).trans ?_)
    | dsimp only
    | simp [*]

@[simp] theorem blank_relayCmd (m : Mbx) (op n : Nat) (f : Cmd → State → State) (s : State) (h0 : Comp.freeCtr ∈ ks)
    (h1 : Comp.pwr ∈ ks) (h2 : Comp.intake ∈ ks) (h3 : Comp.mbx ∈ ks) (h4 : Comp.ctr ∈ ks) (hf : ∀ x0 x1, blank ks (f
    x0 x1) = blank ks x1) : blank ks (relayCmd m op n f s) = blank ks s := by
  simp [relayCmd, *]

@[simp] theorem blank_doRelayRoute (m : Mbx) (s : State) (h0 : Comp.freeCtr ∈ ks) (h1 : Comp.pwr ∈ ks) (h2 :
    Comp.intake ∈ ks) (h3 : Comp.mbx ∈ ks) (h4 : Comp.relay ∈ ks) (h5 : Comp.ctr ∈ ks) : blank ks (doRelayRoute m s) =
    blank ks s := by
  unfold doRelayRoute
  repeat' first
    | with_reducible rfl
    | (simp [*]; done)
    | (apply blank_relayCmd <;> first | assumption | intros)
    | split
    | (refine (blank_foldl (fun _ _ => ?_) _ _).trans ?_)
    | dsimp only
    | simp [*]

@[simp] theorem blank_doRelayFence (m : Mbx) (s : State) (hw : Wide ks) : blank ks (doRelayFence m s) = blank ks s :=
    by
  unfold doRelayFence
  repeat' first
    | with_reducible rfl
    | (simp [*]; done)
    | (apply blank_relayCmd <;> first | assumption | intros)
    | split
    | (refine (blank_foldl (fun _ _ => ?_) _ _).trans ?_)
    | dsimp only
    | simp [*]

@[simp] theorem blank_doRelayStatus (m : Mbx) (s : State) (h0 : Comp.freeCtr ∈ ks) (h1 : Comp.pwr ∈ ks) (h2 :
    Comp.intake ∈ ks) (h3 : Comp.mbx ∈ ks) (h4 : Comp.ctr ∈ ks) : blank ks (doRelayStatus m s) = blank ks s := by
  unfold doRelayStatus
  repeat' first
    | with_reducible rfl
    | (simp [*]; done)
    | (apply blank_relayCmd <;> first | assumption | intros)
    | split
    | (refine (blank_foldl (fun _ _ => ?_) _ _).trans ?_)
    | dsimp only
    | simp [*]

end Sys2Proof.Machine
end

