-- ==== Sys2Proof/Laws/FrameRtpCmd.lean ====
section
/-! SUPPORT. Frames of the operations of Machine/RtpCmd.lean (see Frame.lean). -/

namespace Sys2Proof.Machine

open Sys2Proof.Safety

variable {ks : List Comp}

@[simp] theorem blank_doMbxGo (m : Mbx) (data : BitVec 64) (rq : Rq) (s : State) (hw : Wide ks) (ht : Comp.tack ∈ ks)
    : blank ks (doMbxGo m data rq s) = blank ks s := by
  simp [doMbxGo, *]

@[simp] theorem blank_doLnConsWrite (r : BitVec 15) (a : Acc) (data : BitVec 64) (rq : Rq) (s : State) (hw : Wide ks)
    (ht : Comp.tack ∈ ks) : blank ks (doLnConsWrite r a data rq s) = blank ks s := by
  simp [doLnConsWrite, *]

@[simp] theorem blank_doLnRunlvlWrite (r : BitVec 15) (a : Acc) (data : BitVec 64) (rq : Rq) (s : State) (hw : Wide
    ks) (ht : Comp.tack ∈ ks) : blank ks (doLnRunlvlWrite r a data rq s) = blank ks s := by
  simp [doLnRunlvlWrite, *]

@[simp] theorem blank_doLnEoiWrite (r : BitVec 15) (a : Acc) (data : BitVec 64) (rq : Rq) (s : State) (hw : Wide ks)
    (ht : Comp.tack ∈ ks) : blank ks (doLnEoiWrite r a data rq s) = blank ks s := by
  simp [doLnEoiWrite, *]

@[simp] theorem blank_doTkAcqRead (n : Nat) (a : Acc) (rq : Rq) (s : State) (hw : Wide ks) (ht : Comp.tack ∈ ks) :
    blank ks (doTkAcqRead n a rq s) = blank ks s := by
  simp [doTkAcqRead, *]

@[simp] theorem blank_doTkRel (n : Nat) (rq : Rq) (s : State) (hw : Wide ks) (ht : Comp.tack ∈ ks) : blank ks (doTkRel
    n rq s) = blank ks s := by
  simp [doTkRel, *]

@[simp] theorem blank_doTkBreak (n : Nat) (rq : Rq) (s : State) (hw : Wide ks) (ht : Comp.tack ∈ ks) : blank ks
    (doTkBreak n rq s) = blank ks s := by
  simp [doTkBreak, *]

@[simp] theorem blank_doTkLeaseWrite (n : Nat) (a : Acc) (data : BitVec 64) (rq : Rq) (s : State) (hw : Wide ks) (ht :
    Comp.tack ∈ ks) : blank ks (doTkLeaseWrite n a data rq s) = blank ks s := by
  simp [doTkLeaseWrite, *]

@[simp] theorem blank_doSlcMaskOpGo (src : BitVec 18) (value : Bool) (rq : Rq) (s : State) (hw : Wide ks) (ht :
    Comp.tack ∈ ks) : blank ks (doSlcMaskOpGo src value rq s) = blank ks s := by
  simp [doSlcMaskOpGo, *]

@[simp] theorem blank_doGtUpdGo (rq : Rq) (s : State) (hw : Wide ks) (ht : Comp.tack ∈ ks) : blank ks (doGtUpdGo rq s)
    = blank ks s := by
  simp [doGtUpdGo, *]

@[simp] theorem blank_installStaged (k : Nat) (s : State) (h0 : Comp.gates ∈ ks) : blank ks (installStaged k s) =
    blank ks s := by
  unfold installStaged
  repeat' first
    | with_reducible rfl
    | (simp [*]; done)
    | split
    | (refine (blank_foldl (fun _ _ => ?_) _ _).trans ?_)
    | dsimp only
    | simp [*]

@[simp] theorem blank_doGateUpdate (s : State) (hw : Wide ks) : blank ks (doGateUpdate s) = blank ks s := by
  unfold doGateUpdate
  split
  · rfl
  · split
    · refine (blank_afterDlv _ hw).trans ?_
      have h : blank ks ((stagedKeys s).foldl (fun s k => installStaged k s) s) = blank ks s :=
        blank_foldl (fun _ _ => by simp [hw]) _ _
      simp [hw, h]
    · exact blank_foldl (fun _ _ => by simp [hw]) _ _

@[simp] theorem blank_doDlvRstgGo (rq : Rq) (s : State) (hw : Wide ks) (ht : Comp.tack ∈ ks) : blank ks (doDlvRstgGo
    rq s) = blank ks s := by
  simp [doDlvRstgGo, *]

@[simp] theorem blank_doSlcSrcGo (rq : Rq) (s : State) (hw : Wide ks) (ht : Comp.tack ∈ ks) : blank ks (doSlcSrcGo rq
    s) = blank ks s := by
  simp [doSlcSrcGo, *]

@[simp] theorem blank_doSlcSrcSelWrite (a : Acc) (data : BitVec 64) (rq : Rq) (s : State) (hw : Wide ks) (ht :
    Comp.tack ∈ ks) : blank ks (doSlcSrcSelWrite a data rq s) = blank ks s := by
  simp [doSlcSrcSelWrite, *]

@[simp] theorem blank_doPrfSelWrite (a : Acc) (data : BitVec 64) (rq : Rq) (s : State) (hw : Wide ks) (ht : Comp.tack
    ∈ ks) : blank ks (doPrfSelWrite a data rq s) = blank ks s := by
  simp [doPrfSelWrite, *]

@[simp] theorem blank_doErrCoreRestart (rq : Rq) (s : State) (hw : Wide ks) (ht : Comp.tack ∈ ks) : blank ks
    (doErrCoreRestart rq s) = blank ks s := by
  simp [doErrCoreRestart, *]

@[simp] theorem blank_doErrRingBaseWrite (a : Acc) (data : BitVec 64) (rq : Rq) (s : State) (hw : Wide ks) (ht :
    Comp.tack ∈ ks) : blank ks (doErrRingBaseWrite a data rq s) = blank ks s := by
  simp [doErrRingBaseWrite, *]

@[simp] theorem blank_doConsIndexWrite (r : ConsReg) (a : Acc) (data : BitVec 64) (rq : Rq) (s : State) (hw : Wide ks)
    (ht : Comp.tack ∈ ks) : blank ks (doConsIndexWrite r a data rq s) = blank ks s := by
  simp [doConsIndexWrite, *]

@[simp] theorem blank_doArbiterConfigWrite (r : ArbReg) (a : Acc) (data : BitVec 64) (rq : Rq) (s : State) (hw : Wide
    ks) (ht : Comp.tack ∈ ks) : blank ks (doArbiterConfigWrite r a data rq s) = blank ks s := by
  simp [doArbiterConfigWrite, *]

@[simp] theorem blank_doSmtLaneCfgWrite (a : Acc) (data : BitVec 64) (rq : Rq) (s : State) (hw : Wide ks) (ht :
    Comp.tack ∈ ks) : blank ks (doSmtLaneCfgWrite a data rq s) = blank ks s := by
  simp [doSmtLaneCfgWrite, *]

@[simp] theorem blank_doStatusFlagClear (f : FlagReg) (tag : BitVec 4) (rq : Rq) (s : State) (hw : Wide ks) (ht :
    Comp.tack ∈ ks) : blank ks (doStatusFlagClear f tag rq s) = blank ks s := by
  simp [doStatusFlagClear, *]

@[simp] theorem blank_doCounterWrite (o : BitVec 26) (a : Acc) (data : BitVec 64) (rq : Rq) (s : State) (hw : Wide ks)
    (ht : Comp.tack ∈ ks) : blank ks (doCounterWrite o a data rq s) = blank ks s := by
  simp [doCounterWrite, *]

@[simp] theorem blank_doRegisterWrite (q : BitVec 128) (qp : BitVec 8) (s : State) (hw : Wide ks) (ht : Comp.tack ∈
    ks) : blank ks (doRegisterWrite q qp s) = blank ks s := by
  simp [doRegisterWrite, *]

@[simp] theorem blank_doRtpRead (q : BitVec 128) (qp : BitVec 8) (s : State) (hw : Wide ks) (ht : Comp.tack ∈ ks) :
    blank ks (doRtpRead q qp s) = blank ks s := by
  simp [doRtpRead, *]

end Sys2Proof.Machine
end

