-- ==== Sys2Proof/Laws/FrameTwin.lean ====
section
/-! SUPPORT. Frames of the operations of Machine/Twin.lean (see Frame.lean). -/

namespace Sys2Proof.Machine

open Sys2Proof.Safety

variable {ks : List Comp}

@[simp] theorem blank_doTrainingTimeout (s : State) (h0 : Comp.twin ∈ ks) (h1 : Comp.link ∈ ks) : blank ks
    (doTrainingTimeout s) = blank ks s := by
  simp [doTrainingTimeout, *]

@[simp] theorem blank_doTrainingRetry (s : State) (h0 : Comp.out ∈ ks) (h1 : Comp.twin ∈ ks) (h2 : Comp.link ∈ ks) (h3
    : Comp.ctr ∈ ks) (h4 : Comp.log ∈ ks) : blank ks (doTrainingRetry s) = blank ks s := by
  unfold doTrainingRetry
  repeat' first
    | with_reducible rfl
    | (simp [*]; done)
    | split
    | (refine (blank_foldl (fun _ _ => ?_) _ _).trans ?_)
    | dsimp only
    | simp [*]

@[simp] theorem blank_doMirrorReceived (s : State) (h0 : Comp.twin ∈ ks) (h1 : Comp.link ∈ ks) : blank ks
    (doMirrorReceived s) = blank ks s := by
  unfold doMirrorReceived
  repeat' first
    | with_reducible rfl
    | (simp [*]; done)
    | split
    | (refine (blank_foldl (fun _ _ => ?_) _ _).trans ?_)
    | dsimp only
    | simp [*]

@[simp] theorem blank_doDirtyReceived (s : State) (h0 : Comp.twin ∈ ks) (h1 : Comp.link ∈ ks) : blank ks
    (doDirtyReceived s) = blank ks s := by
  unfold doDirtyReceived
  repeat' first
    | with_reducible rfl
    | (simp [*]; done)
    | split
    | (refine (blank_foldl (fun _ _ => ?_) _ _).trans ?_)
    | dsimp only
    | simp [*]

@[simp] theorem blank_takeSnapshot (g : Nat) (v : BitVec 128) (s : State) (h0 : Comp.twin ∈ ks) : blank ks
    (takeSnapshot g v s) = blank ks s := by
  simp [takeSnapshot, *]

@[simp] theorem blank_sayDone (s : State) (h0 : Comp.out ∈ ks) (h1 : Comp.freeCtr ∈ ks) (h2 : Comp.pwr ∈ ks) (h3 :
    Comp.intake ∈ ks) (h4 : Comp.mbx ∈ ks) (h5 : Comp.tenant ∈ ks) (h6 : Comp.twin ∈ ks) (h7 : Comp.link ∈ ks) (h8 :
    Comp.ctr ∈ ks) : blank ks (sayDone s) = blank ks s := by
  unfold sayDone
  repeat' first
    | with_reducible rfl
    | (simp [*]; done)
    | split
    | (refine (blank_foldl (fun _ _ => ?_) _ _).trans ?_)
    | dsimp only
    | simp [*]

@[simp] theorem blank_doSnapshotReceived (s : State) (hw : Wide ks) : blank ks (doSnapshotReceived s) = blank ks s :=
    by
  unfold doSnapshotReceived
  repeat' first
    | with_reducible rfl
    | (simp [*]; done)
    | split
    | (refine (blank_foldl (fun _ _ => ?_) _ _).trans ?_)
    | dsimp only
    | simp [*]

@[simp] theorem blank_doForwardReceived (s : State) (hw : Wide ks) : blank ks (doForwardReceived s) = blank ks s := by
  unfold doForwardReceived
  repeat' first
    | with_reducible rfl
    | (simp [*]; done)
    | split
    | (refine (blank_foldl (fun _ _ => ?_) _ _).trans ?_)
    | dsimp only
    | simp [*]

@[simp] theorem blank_backToPaired (s : State) (h0 : Comp.twin ∈ ks) : blank ks (backToPaired s) = blank ks s := by
  simp [backToPaired, *]

@[simp] theorem blank_doMirrorSend (s : State) (h0 : Comp.twin ∈ ks) (h1 : Comp.link ∈ ks) (h2 : Comp.ctr ∈ ks) :
    blank ks (doMirrorSend s) = blank ks s := by
  unfold doMirrorSend
  repeat' first
    | with_reducible rfl
    | (simp [*]; done)
    | split
    | (refine (blank_foldl (fun _ _ => ?_) _ _).trans ?_)
    | dsimp only
    | simp [*]

@[simp] theorem blank_doSnapshotSend (s : State) (h0 : Comp.twin ∈ ks) : blank ks (doSnapshotSend s) = blank ks s :=
    by
  unfold doSnapshotSend
  repeat' first
    | with_reducible rfl
    | (simp [*]; done)
    | split
    | (refine (blank_foldl (fun _ _ => ?_) _ _).trans ?_)
    | dsimp only
    | simp [*]

@[simp] theorem blank_takeFw (rsp : Bool) (s : State) (h0 : Comp.link ∈ ks) : blank ks (takeFw rsp s) = blank ks s :=
    by
  simp [takeFw, *]

@[simp] theorem blank_voteOn (e : BitVec 16) (w : Option CommitWhat) (s : State) (hw : Wide ks) : blank ks (voteOn e w
    s) = blank ks s := by
  unfold voteOn
  repeat' first
    | with_reducible rfl
    | (simp [*]; done)
    | split
    | (refine (blank_foldl (fun _ _ => ?_) _ _).trans ?_)
    | dsimp only
    | simp [*]

@[simp] theorem blank_performPeer (p : PeerCmd) (e : BitVec 16) (s : State) (h0 : Comp.slc ∈ ks) (h1 : Comp.fw ∈ ks)
    (h2 : Comp.twin ∈ ks) (h3 : Comp.ctr ∈ ks) : blank ks (performPeer p e s) = blank ks s := by
  unfold performPeer
  repeat' first
    | with_reducible rfl
    | (simp [*]; done)
    | split
    | (refine (blank_foldl (fun _ _ => ?_) _ _).trans ?_)
    | dsimp only
    | simp [*]

@[simp] theorem blank_prepareIn (dws : List DW) (s : State) (hw : Wide ks) : blank ks (prepareIn dws s) = blank ks s
    := by
  unfold prepareIn
  repeat' first
    | with_reducible rfl
    | (simp [*]; done)
    | split
    | (refine (blank_foldl (fun _ _ => ?_) _ _).trans ?_)
    | dsimp only
    | simp [*]

@[simp] theorem blank_doPrepareReceived (s : State) (hw : Wide ks) : blank ks (doPrepareReceived s) = blank ks s := by
  unfold doPrepareReceived
  repeat' first
    | with_reducible rfl
    | (simp [*]; done)
    | split
    | (refine (blank_foldl (fun _ _ => ?_) _ _).trans ?_)
    | dsimp only
    | simp [*]

@[simp] theorem blank_votedNo (c : CommitRun) (reason : Byte) (s : State) (h0 : Comp.freeCtr ∈ ks) (h1 : Comp.pwr ∈
    ks) (h2 : Comp.intake ∈ ks) (h3 : Comp.mbx ∈ ks) (h4 : Comp.tenant ∈ ks) (h5 : Comp.fw ∈ ks) (h6 : Comp.ctr ∈ ks)
    : blank ks (votedNo c reason s) = blank ks s := by
  unfold votedNo
  repeat' first
    | with_reducible rfl
    | (simp [*]; done)
    | split
    | (refine (blank_foldl (fun _ _ => ?_) _ _).trans ?_)
    | dsimp only
    | simp [*]

@[simp] theorem blank_voteIn (c : CommitRun) (w : DW) (s : State) (hw : Wide ks) : blank ks (voteIn c w s) = blank ks
    s := by
  unfold voteIn
  repeat' first
    | with_reducible rfl
    | (simp [*]; done)
    | split
    | (refine (blank_foldl (fun _ _ => ?_) _ _).trans ?_)
    | dsimp only
    | simp [*]

@[simp] theorem blank_peerDone (m : Mbx) (s : State) (h0 : Comp.freeCtr ∈ ks) (h1 : Comp.pwr ∈ ks) (h2 : Comp.intake ∈
    ks) (h3 : Comp.mbx ∈ ks) (h4 : Comp.twin ∈ ks) (h5 : Comp.ctr ∈ ks) : blank ks (peerDone m s) = blank ks s := by
  unfold peerDone
  repeat' first
    | with_reducible rfl
    | (simp [*]; done)
    | split
    | (refine (blank_foldl (fun _ _ => ?_) _ _).trans ?_)
    | dsimp only
    | simp [*]

@[simp] theorem blank_askVoted (e : BitVec 16) (s : State) (hw : Wide ks) : blank ks (askVoted e s) = blank ks s := by
  unfold askVoted
  repeat' first
    | with_reducible rfl
    | (simp [*]; done)
    | split
    | (refine (blank_foldl (fun _ _ => ?_) _ _).trans ?_)
    | dsimp only
    | simp [*]

@[simp] theorem blank_doVoteReceived (s : State) (hw : Wide ks) : blank ks (doVoteReceived s) = blank ks s := by
  unfold doVoteReceived
  repeat' first
    | with_reducible rfl
    | (simp [*]; done)
    | split
    | (refine (blank_foldl (fun _ _ => ?_) _ _).trans ?_)
    | dsimp only
    | simp [*]

@[simp] theorem blank_doVoteTimeout (s : State) (hw : Wide ks) : blank ks (doVoteTimeout s) = blank ks s := by
  unfold doVoteTimeout
  repeat' first
    | with_reducible rfl
    | (simp [*]; done)
    | split
    | (refine (blank_foldl (fun _ _ => ?_) _ _).trans ?_)
    | dsimp only
    | simp [*]

@[simp] theorem blank_doDecideReceived (s : State) (hw : Wide ks) : blank ks (doDecideReceived s) = blank ks s := by
  unfold doDecideReceived
  repeat' first
    | with_reducible rfl
    | (simp [*]; done)
    | split
    | (refine (blank_foldl (fun _ _ => ?_) _ _).trans ?_)
    | dsimp only
    | simp [*]

@[simp] theorem blank_doDecideAckReceived (s : State) (hw : Wide ks) : blank ks (doDecideAckReceived s) = blank ks s
    := by
  unfold doDecideAckReceived
  repeat' first
    | with_reducible rfl
    | (simp [*]; done)
    | split
    | (refine (blank_foldl (fun _ _ => ?_) _ _).trans ?_)
    | dsimp only
    | simp [*]

@[simp] theorem blank_doPartnerLoss (s : State) (hw : Wide ks) : blank ks (doPartnerLoss s) = blank ks s := by
  simp [doPartnerLoss, *]

@[simp] theorem blank_doTakeoverEventApply (src : BitVec 18) (s : State) (hw : Wide ks) : blank ks
    (doTakeoverEventApply src s) = blank ks s := by
  unfold doTakeoverEventApply
  repeat' first
    | with_reducible rfl
    | (simp [*]; done)
    | split
    | (refine (blank_foldl (fun _ _ => ?_) _ _).trans ?_)
    | dsimp only
    | simp [*]

@[simp] theorem blank_doTakeoverComplete (s : State) (h0 : Comp.twin ∈ ks) (h1 : Comp.log ∈ ks) : blank ks
    (doTakeoverComplete s) = blank ks s := by
  simp [doTakeoverComplete, *]

@[simp] theorem blank_doLeaseTake (s : State) (h0 : Comp.out ∈ ks) (h1 : Comp.freeCtr ∈ ks) (h2 : Comp.twin ∈ ks) (h3
    : Comp.ctr ∈ ks) : blank ks (doLeaseTake s) = blank ks s := by
  simp [doLeaseTake, *]

@[simp] theorem blank_startRenew (s : State) (h0 : Comp.out ∈ ks) (h1 : Comp.freeCtr ∈ ks) (h2 : Comp.twin ∈ ks) (h3 :
    Comp.ctr ∈ ks) : blank ks (startRenew s) = blank ks s := by
  unfold startRenew
  repeat' first
    | with_reducible rfl
    | (simp [*]; done)
    | split
    | (refine (blank_foldl (fun _ _ => ?_) _ _).trans ?_)
    | dsimp only
    | simp [*]

@[simp] theorem blank_doLeaseRenew (s : State) (h0 : Comp.out ∈ ks) (h1 : Comp.freeCtr ∈ ks) (h2 : Comp.twin ∈ ks) (h3
    : Comp.ctr ∈ ks) : blank ks (doLeaseRenew s) = blank ks s := by
  simp [doLeaseRenew, *]

@[simp] theorem blank_renewFailed (s : State) (h0 : Comp.freeCtr ∈ ks) (h1 : Comp.pwr ∈ ks) (h2 : Comp.intake ∈ ks)
    (h3 : Comp.mbx ∈ ks) (h4 : Comp.tenant ∈ ks) (h5 : Comp.fw ∈ ks) (h6 : Comp.ctr ∈ ks) : blank ks (renewFailed s) =
    blank ks s := by
  unfold renewFailed
  repeat' first
    | with_reducible rfl
    | (simp [*]; done)
    | split
    | (refine (blank_foldl (fun _ _ => ?_) _ _).trans ?_)
    | dsimp only
    | simp [*]

@[simp] theorem blank_leaseGone (s : State) (h0 : Comp.out ∈ ks) (h1 : Comp.freeCtr ∈ ks) (h2 : Comp.pwr ∈ ks) (h3 :
    Comp.intake ∈ ks) (h4 : Comp.mbx ∈ ks) (h5 : Comp.tenant ∈ ks) (h6 : Comp.fw ∈ ks) (h7 : Comp.twin ∈ ks) (h8 :
    Comp.ctr ∈ ks) : blank ks (leaseGone s) = blank ks s := by
  unfold leaseGone
  repeat' first
    | with_reducible rfl
    | (simp [*]; done)
    | split
    | (refine (blank_foldl (fun _ _ => ?_) _ _).trans ?_)
    | dsimp only
    | simp [*]

@[simp] theorem blank_doLeaseLapse (s : State) (hw : Wide ks) : blank ks (doLeaseLapse s) = blank ks s := by
  simp [doLeaseLapse, *]

@[simp] theorem blank_leaseNext (s : State) (h0 : Comp.out ∈ ks) (h1 : Comp.freeCtr ∈ ks) (h2 : Comp.pwr ∈ ks) (h3 :
    Comp.intake ∈ ks) (h4 : Comp.mbx ∈ ks) (h5 : Comp.tenant ∈ ks) (h6 : Comp.twin ∈ ks) (h7 : Comp.ctr ∈ ks) : blank
    ks (leaseNext s) = blank ks s := by
  unfold leaseNext
  repeat' first
    | with_reducible rfl
    | (simp [*]; done)
    | split
    | (refine (blank_foldl (fun _ _ => ?_) _ _).trans ?_)
    | dsimp only
    | simp [*]

@[simp] theorem blank_renewResult (mine : Bool) (compare swap old : BitVec 64) (s : State) (hw : Wide ks) : blank ks
    (renewResult mine compare swap old s) = blank ks s := by
  unfold renewResult
  repeat' first
    | with_reducible rfl
    | (simp [*]; done)
    | split
    | (refine (blank_foldl (fun _ _ => ?_) _ _).trans ?_)
    | dsimp only
    | simp [*]

@[simp] theorem blank_releaseResult (compare swap old : BitVec 64) (s : State) (h0 : Comp.out ∈ ks) (h1 : Comp.freeCtr
    ∈ ks) (h2 : Comp.pwr ∈ ks) (h3 : Comp.intake ∈ ks) (h4 : Comp.mbx ∈ ks) (h5 : Comp.tenant ∈ ks) (h6 : Comp.fw ∈
    ks) (h7 : Comp.twin ∈ ks) (h8 : Comp.ctr ∈ ks) : blank ks (releaseResult compare swap old s) = blank ks s := by
  unfold releaseResult
  repeat' first
    | with_reducible rfl
    | (simp [*]; done)
    | split
    | (refine (blank_foldl (fun _ _ => ?_) _ _).trans ?_)
    | dsimp only
    | simp [*]

@[simp] theorem blank_takeResult (w : BitVec 64) (s : State) (h0 : Comp.out ∈ ks) (h1 : Comp.freeCtr ∈ ks) (h2 :
    Comp.twin ∈ ks) (h3 : Comp.ctr ∈ ks) : blank ks (takeResult w s) = blank ks s := by
  unfold takeResult
  repeat' first
    | with_reducible rfl
    | (simp [*]; done)
    | split
    | (refine (blank_foldl (fun _ _ => ?_) _ _).trans ?_)
    | dsimp only
    | simp [*]

@[simp] theorem blank_witnessResult (m : Mbx) (a w : BitVec 64) (s : State) (h0 : Comp.freeCtr ∈ ks) (h1 : Comp.pwr ∈
    ks) (h2 : Comp.intake ∈ ks) (h3 : Comp.mbx ∈ ks) (h4 : Comp.fw ∈ ks) (h5 : Comp.link ∈ ks) (h6 : Comp.ctr ∈ ks) :
    blank ks (witnessResult m a w s) = blank ks s := by
  simp [witnessResult, *]

@[simp] theorem blank_readOk (what : RdWhat) (old : BitVec 64) (s : State) (hw : Wide ks) : blank ks (readOk what old
    s) = blank ks s := by
  unfold readOk
  repeat' first
    | with_reducible rfl
    | (simp [*]; done)
    | split
    | (refine (blank_foldl (fun _ _ => ?_) _ _).trans ?_)
    | dsimp only
    | simp [*]

@[simp] theorem blank_readErr (what : RdWhat) (s : State) (h0 : Comp.out ∈ ks) (h1 : Comp.freeCtr ∈ ks) (h2 : Comp.pwr
    ∈ ks) (h3 : Comp.intake ∈ ks) (h4 : Comp.mbx ∈ ks) (h5 : Comp.tenant ∈ ks) (h6 : Comp.fw ∈ ks) (h7 : Comp.twin ∈
    ks) (h8 : Comp.ctr ∈ ks) : blank ks (readErr what s) = blank ks s := by
  unfold readErr
  repeat' first
    | with_reducible rfl
    | (simp [*]; done)
    | split
    | (refine (blank_foldl (fun _ _ => ?_) _ _).trans ?_)
    | dsimp only
    | simp [*]

@[simp] theorem blank_doRchResponse (rs : BitVec 11) (r : BitVec 512) (rp : BitVec 32) (s : State) (hw : Wide ks) :
    blank ks (doRchResponse rs r rp s) = blank ks s := by
  unfold doRchResponse
  repeat' first
    | with_reducible rfl
    | (simp [*]; done)
    | split
    | (refine (blank_foldl (fun _ _ => ?_) _ _).trans ?_)
    | dsimp only
    | simp [*]

@[simp] theorem blank_doReadTimeout (tag : Nat) (s : State) (hw : Wide ks) : blank ks (doReadTimeout tag s) = blank ks
    s := by
  unfold doReadTimeout
  repeat' first
    | with_reducible rfl
    | (simp [*]; done)
    | split
    | (refine (blank_foldl (fun _ _ => ?_) _ _).trans ?_)
    | dsimp only
    | simp [*]

@[simp] theorem blank_doRewash (s : State) (hw : Wide ks) : blank ks (doRewash s) = blank ks s := by
  unfold doRewash
  repeat' first
    | with_reducible rfl
    | (simp [*]; done)
    | split
    | (refine (blank_foldl (fun _ _ => ?_) _ _).trans ?_)
    | dsimp only
    | simp [*]

@[simp] theorem blank_chooseKeeper (i : RewashInfo) (s : State) (h0 : Comp.mbx ∈ ks) (h1 : Comp.twin ∈ ks) (h2 :
    Comp.link ∈ ks) : blank ks (chooseKeeper i s) = blank ks s := by
  unfold chooseKeeper
  repeat' first
    | with_reducible rfl
    | (simp [*]; done)
    | split
    | (refine (blank_foldl (fun _ _ => ?_) _ _).trans ?_)
    | dsimp only
    | simp [*]

@[simp] theorem blank_rewashCommit (s : State) (h0 : Comp.freeCtr ∈ ks) (h1 : Comp.pwr ∈ ks) (h2 : Comp.intake ∈ ks)
    (h3 : Comp.mbx ∈ ks) (h4 : Comp.tenant ∈ ks) (h5 : Comp.fw ∈ ks) (h6 : Comp.ctr ∈ ks) : blank ks (rewashCommit s)
    = blank ks s := by
  unfold rewashCommit
  repeat' first
    | with_reducible rfl
    | (simp [*]; done)
    | split
    | (refine (blank_foldl (fun _ _ => ?_) _ _).trans ?_)
    | dsimp only
    | simp [*]

@[simp] theorem blank_joinRewash (s : State) (h0 : Comp.freeCtr ∈ ks) (h1 : Comp.pwr ∈ ks) (h2 : Comp.intake ∈ ks) (h3
    : Comp.mbx ∈ ks) (h4 : Comp.tenant ∈ ks) (h5 : Comp.fw ∈ ks) (h6 : Comp.twin ∈ ks) (h7 : Comp.link ∈ ks) (h8 :
    Comp.ctr ∈ ks) : blank ks (joinRewash s) = blank ks s := by
  simp [joinRewash, *]

@[simp] theorem blank_doRewashInfoReceived (s : State) (hw : Wide ks) : blank ks (doRewashInfoReceived s) = blank ks s
    := by
  unfold doRewashInfoReceived
  split
  · split
    · rfl
    · extract_lets i s1 ts s2
      have h1 : blank ks s1 = blank ks s := by simp [s1, hw]
      have h2 : blank ks s2 = blank ks s := (blank_foldl (fun _ _ => by simp [hw]) _ _).trans h1
      have h3 : blank ks (ts.foldl (fun s t => destroyFinish t s) s2) = blank ks s :=
        (blank_foldl (fun _ _ => by simp [hw]) _ _).trans h2
      split
      · exact (blank_wakeDips _ (hw.mem (by decide) (by decide))).trans h1
      · split
        · exact (blank_afterDlv _ hw).trans (by simp [hw, h3])
        · exact (blank_afterDlv _ hw).trans h2
  · rfl

@[simp] theorem blank_doRewashEntriesReceived (s : State) (hw : Wide ks) : blank ks (doRewashEntriesReceived s) =
    blank ks s := by
  unfold doRewashEntriesReceived
  repeat' first
    | with_reducible rfl
    | (simp [*]; done)
    | split
    | (refine (blank_foldl (fun _ _ => ?_) _ _).trans ?_)
    | dsimp only
    | simp [*]

@[simp] theorem blank_doRewashDoneReceived (s : State) (hw : Wide ks) : blank ks (doRewashDoneReceived s) = blank ks s
    := by
  unfold doRewashDoneReceived
  repeat' first
    | with_reducible rfl
    | (simp [*]; done)
    | split
    | (refine (blank_foldl (fun _ _ => ?_) _ _).trans ?_)
    | dsimp only
    | simp [*]

@[simp] theorem blank_doTallyCkptReceived (s : State) (h0 : Comp.twin ∈ ks) (h1 : Comp.link ∈ ks) : blank ks
    (doTallyCkptReceived s) = blank ks s := by
  unfold doTallyCkptReceived
  repeat' first
    | with_reducible rfl
    | (simp [*]; done)
    | split
    | (refine (blank_foldl (fun _ _ => ?_) _ _).trans ?_)
    | dsimp only
    | simp [*]

end Sys2Proof.Machine
end

