-- ==== Sys2Proof/Laws/Half.lean ====
section
/-! SUPPORT. Halves: which operations of delivery leave every half as it is, and what release, reserve, quiesce and advance do to one. -/

namespace Sys2Proof.Machine

open Sys2Proof.Safety

theorem half_foldl {α : Type} {g : State → α → State} (hg : ∀ s a, (g s a).dlv.half = s.dlv.half) (l : List α) (s : State) :
    (l.foldl g s).dlv.half = s.dlv.half := by
  induction l generalizing s with
  | nil => rfl
  | cons a r ih => rw [List.foldl_cons, ih, hg]

@[simp] theorem half_ite (p : Prop) [Decidable p] (a b : State) :
    (if p then a else b).dlv.half = if p then a.dlv.half else b.dlv.half := by split <;> rfl

@[simp] theorem setGrun_half (s : State) (g : Nat) (v : GrpRun) : (s.setGrun g v).dlv.half = s.dlv.half := by
  rfl

@[simp] theorem setLq_half (s : State) (l : Nat) (v : List Req) : (s.setLq l v).dlv.half = s.dlv.half := by
  rfl

@[simp] theorem setPaceQ_half (s : State) (l : Nat) (v : List Req) : (s.setPaceQ l v).dlv.half = s.dlv.half := by
  rfl

@[simp] theorem setMc_half (s : State) (k : Nat) (v : Option McRun) : (s.setMc k v).dlv.half = s.dlv.half := by
  rfl

@[simp] theorem setGrants_half (s : State) (c : Nat) (v : List Grant) : (s.setGrants c v).dlv.half = s.dlv.half := by
  rfl

@[simp] theorem setOutst_half (s : State) (c t : Nat) (v : Option Outst) : (s.setOutst c t v).dlv.half = s.dlv.half :=
    by
  rfl

@[simp] theorem setBucket_half (s : State) (r : Nat) (v : Nat) : (s.setBucket r v).dlv.half = s.dlv.half := by
  rfl

@[simp] theorem setNoteQ_half (s : State) (c : Nat) (v : List Note) : (s.setNoteQ c v).dlv.half = s.dlv.half := by
  rfl

@[simp] theorem bumpBy_dlv (off k : Nat) (s : State) : (bumpBy off k s).dlv = s.dlv := by
  exact Only.dlv (cs := [.ctr]) (blank_bumpBy _ _ _ (by simp)) (by simp)

@[simp] theorem bump_dlv (off : Nat) (s : State) : (bump off s).dlv = s.dlv := by
  exact Only.dlv (cs := [.ctr]) (blank_bump _ _ (by simp)) (by simp)

@[simp] theorem perfBy_dlv (d code n : Nat) (s : State) : (perfBy d code n s).dlv = s.dlv := by
  exact Only.dlv (cs := [.ctr]) (blank_perfBy _ _ _ _ (by simp)) (by simp)

@[simp] theorem perf_dlv (d code : Nat) (s : State) : (perf d code s).dlv = s.dlv := by
  exact Only.dlv (cs := [.ctr]) (blank_perf _ _ _ (by simp)) (by simp)

@[simp] theorem perfUnit_dlv (d n : Nat) (s : State) : (perfUnit d n s).dlv = s.dlv := by
  exact Only.dlv (cs := [.ctr]) (blank_perfUnit _ _ _ (by simp)) (by simp)

@[simp] theorem cryTags_dlv (n : Nat) (s : State) : (cryTags n s).dlv = s.dlv := by
  exact Only.dlv (cs := [.ctr]) (blank_cryTags _ _ (by simp)) (by simp)

@[simp] theorem askCopy_dlv (e : Nat) (s : State) : (askCopy e s).dlv = s.dlv := by
  exact Only.dlv (cs := [.log]) (blank_askCopy _ _ (by simp)) (by simp)

@[simp] theorem putEntry_dlv (e : Nat) (x : LogEnt) (s : State) : (putEntry e x s).dlv = s.dlv := by
  exact Only.dlv (cs := [.log]) (blank_putEntry _ _ _ (by simp)) (by simp)

@[simp] theorem summarise_dlv (s : State) : (summarise s).dlv = s.dlv := by
  exact Only.dlv (cs := [.log]) (blank_summarise _ (by simp)) (by simp)

@[simp] theorem countLost_dlv (cls : BitVec 2) (s : State) : (countLost cls s).dlv = s.dlv := by
  exact Only.dlv (cs := [.log]) (blank_countLost _ _ (by simp)) (by simp)

@[simp] theorem bypassWrite_dlv (x : ErrIn) (s : State) : (bypassWrite x s).dlv = s.dlv := by
  exact Only.dlv (cs := [.log]) (blank_bypassWrite _ _ (by simp)) (by simp)

@[simp] theorem lostCopy_dlv (t : WTarget) (s : State) : (lostCopy t s).dlv = s.dlv := by
  exact Only.dlv (cs := [.log]) (blank_lostCopy _ _ (by simp)) (by simp)

@[simp] theorem enterNew_dlv (x : ErrIn) (copy : Bool) (s0 : State) : (enterNew x copy s0).dlv = s0.dlv :=
    by
  exact Only.dlv (cs := [.log]) (blank_enterNew _ _ _ (by simp)) (by simp)

@[simp] theorem mergeInto_dlv (e : Nat) (s : State) : (mergeInto e s).dlv = s.dlv := by
  exact Only.dlv (cs := [.log]) (blank_mergeInto _ _ (by simp)) (by simp)

@[simp] theorem logCE_dlv (x : ErrIn) (s : State) : (logCE x s).dlv = s.dlv := by
  exact Only.dlv (cs := [.log]) (blank_logCE _ _ (by simp)) (by simp)

@[simp] theorem logCEKind_dlv (k : ErrKind) (u : ErrUnit) (detail : BitVec 256) (s : State) : (logCEKind k u detail
    s).dlv = s.dlv := by
  exact Only.dlv (cs := [.log]) (blank_logCEKind _ _ _ _ (by simp)) (by simp)

@[simp] theorem report_dlv (v : Viol) (t : BitVec 8) (s : State) : (report v t s).dlv = s.dlv := by
  exact Only.dlv (cs := [.gates, .tly, .ctr, .log]) (blank_report _ _ _ (by simp) (by simp) (by simp) (by simp)) (by simp)

@[simp] theorem queueMirror_dlv (k : Nat) (m : BitVec 2) (s : State) : (queueMirror k m s).dlv = s.dlv :=
    by
  exact Only.dlv (cs := [.twin, .ctr]) (blank_queueMirror _ _ _ (by simp) (by simp)) (by simp)

@[simp] theorem putDyn_dlv (k : Nat) (d : SrcDyn) (s : State) : (putDyn k d s).dlv = s.dlv := by
  exact Only.dlv (cs := [.slc, .twin, .ctr]) (blank_putDyn _ _ _ (by simp) (by simp) (by simp)) (by simp)

@[simp] theorem freeSlot_dlv (sl : Option Nat) (s : State) : (freeSlot sl s).dlv = s.dlv := by
  exact Only.dlv (cs := [.slc]) (blank_freeSlot _ _ (by simp)) (by simp)

@[simp] theorem freeEv_dlv (e : Option Ev) (s : State) : (freeEv e s).dlv = s.dlv := by
  exact Only.dlv (cs := [.slc]) (blank_freeEv _ _ (by simp)) (by simp)

@[simp] theorem foldSlot_dlv (e : Ev) (n : Nat) (cookie : Option (BitVec 28)) (s : State) : (foldSlot e n cookie
    s).dlv = s.dlv := by
  exact Only.dlv (cs := [.slc]) (blank_foldSlot _ _ _ _ (by simp)) (by simp)

@[simp] theorem tallyFolded_dlv (t : BitVec 8) (n : Nat) (s : State) : (tallyFolded t n s).dlv = s.dlv :=
    by
  exact Only.dlv (cs := [.tly, .ctr]) (blank_tallyFolded _ _ _ (by simp) (by simp)) (by simp)

@[simp] theorem foldRepend_dlv (k : Nat) (s : State) : (foldRepend k s).dlv = s.dlv := by
  exact Only.dlv (cs := [.slc, .tly, .ctr]) (blank_foldRepend _ _ (by simp) (by simp) (by simp)) (by simp)

@[simp] theorem returnSource_dlv (k : Nat) (s : State) : (returnSource k s).dlv = s.dlv := by
  exact Only.dlv (cs := [.slc, .twin, .tly, .ctr]) (blank_returnSource _ _ (by simp) (by simp) (by simp) (by simp)) (by simp)

@[simp] theorem dropFirst_dlv (k : Nat) (withRep : Ev → SState) (without : SState) (s : State) : (dropFirst k withRep
    without s).2.dlv = s.dlv := by
  exact Only.dlv (cs := [.slc]) (blank_dropFirst _ _ _ _ (by simp)) (by simp)

@[simp] theorem settleCancel_dlv (k : Nat) (s : State) : (settleCancel k s).dlv = s.dlv := by
  exact Only.dlv (cs := [.slc, .twin, .ctr]) (blank_settleCancel _ _ (by simp) (by simp) (by simp)) (by simp)

@[simp] theorem launchTransition_dlv (k : Nat) (mode : BitVec 2) (mirror : Bool) (s : State) : (launchTransition k
    mode mirror s).dlv = s.dlv := by
  exact Only.dlv (cs := [.slc, .twin, .ctr]) (blank_launchTransition _ _ _ _ (by simp) (by simp) (by simp)) (by simp)

@[simp] theorem holdOne_dlv (g : Nat) (k : Nat) (s : State) : (holdOne g k s).dlv = s.dlv := by
  exact Only.dlv (cs := [.slc, .ctr]) (blank_holdOne _ _ _ (by simp) (by simp)) (by simp)

@[simp] theorem soakBegin_half (g : Nat) (s : State) : (soakBegin g s).dlv.half = s.dlv.half := by
  unfold soakBegin
  repeat' first
    | with_reducible rfl
    | (simp; done)
    | split
    | (refine (half_foldl (fun _ _ => ?_) _ _).trans ?_)
    | dsimp only
    | simp

@[simp] theorem countLaunch_half (g : Nat) (s : State) : (countLaunch g s).dlv.half = s.dlv.half := by
  unfold countLaunch
  repeat' first
    | with_reducible rfl
    | (simp; done)
    | split
    | (refine (half_foldl (fun _ _ => ?_) _ _).trans ?_)
    | dsimp only
    | simp

@[simp] theorem present_half (q : Req) (s : State) : (present q s).dlv.half = s.dlv.half := by
  unfold present
  repeat' first
    | with_reducible rfl
    | (simp; done)
    | split
    | (refine (half_foldl (fun _ _ => ?_) _ _).trans ?_)
    | dsimp only
    | simp

@[simp] theorem paceWait_half (q : Req) (s : State) : (paceWait q s).dlv.half = s.dlv.half := by
  unfold paceWait
  repeat' first
    | with_reducible rfl
    | (simp; done)
    | split
    | (refine (half_foldl (fun _ _ => ?_) _ _).trans ?_)
    | dsimp only
    | simp

@[simp] theorem removeReqs_half (p : Req → Bool) (s : State) : (removeReqs p s).dlv.half = s.dlv.half := by
  unfold removeReqs
  generalize List.range 16 = l
  refine Eq.trans ?_ (half_foldl (g := fun s l => (s.setLq l ((s.lq l).filter fun q => !p q)).setPaceQ l ((s.paceQ l).filter fun q => !p q)) (fun _ _ => rfl) l s)
  rfl

@[simp] theorem cancelLate_dlv (k : Nat) (s : State) : (cancelLate k s).dlv = s.dlv := by
  exact Only.dlv (cs := [.ctr]) (blank_cancelLate _ _ (by simp)) (by simp)

@[simp] theorem toQuarantine_dlv (k : Nat) (s : State) : (toQuarantine k s).dlv = s.dlv := by
  exact Only.dlv (cs := [.slc, .twin, .ctr]) (blank_toQuarantine _ _ (by simp) (by simp) (by simp)) (by simp)

@[simp] theorem settleWin_dlv (k : Nat) (s : State) : (settleWin k s).dlv = s.dlv := by
  exact Only.dlv (cs := [.slc, .twin, .tly, .ctr]) (blank_settleWin _ _ (by simp) (by simp) (by simp) (by simp)) (by simp)

@[simp] theorem afterLaunch_dlv (k : Nat) (mode : BitVec 2) (mirror : Bool) (s : State) : (afterLaunch k mode mirror
    s).dlv = s.dlv := by
  exact Only.dlv (cs := [.slc, .twin, .ctr]) (blank_afterLaunch _ _ _ _ (by simp) (by simp) (by simp)) (by simp)

@[simp] theorem mcFinish_half (k : Nat) (s : State) : (mcFinish k s).dlv.half = s.dlv.half := by
  unfold mcFinish
  repeat' first
    | with_reducible rfl
    | (simp; done)
    | split
    | (refine (half_foldl (fun _ _ => ?_) _ _).trans ?_)
    | dsimp only
    | simp

@[simp] theorem countSkips_dlv (n : Nat) (s : State) : (countSkips n s).dlv = s.dlv := by
  exact Only.dlv (cs := [.ctr]) (blank_countSkips _ _ (by simp)) (by simp)

@[simp] theorem residueAdd_half (k m : Nat) (s : State) : (residueAdd k m s).dlv.half = s.dlv.half := by
  unfold residueAdd
  repeat' first
    | with_reducible rfl
    | (simp; done)
    | split
    | (refine (half_foldl (fun _ _ => ?_) _ _).trans ?_)
    | dsimp only
    | simp

@[simp] theorem skipResidues_half (r : Nat) (s : State) : (skipResidues r s).dlv.half = s.dlv.half := by
  unfold skipResidues
  repeat' first
    | with_reducible rfl
    | (simp; done)
    | split
    | (refine (half_foldl (fun _ _ => ?_) _ _).trans ?_)
    | dsimp only
    | simp

@[simp] theorem skipMember_half (k : Nat) (s : State) : (skipMember k s).dlv.half = s.dlv.half := by
  unfold skipMember
  repeat' first
    | with_reducible rfl
    | (simp; done)
    | split
    | (refine (half_foldl (fun _ _ => ?_) _ _).trans ?_)
    | dsimp only
    | simp

@[simp] theorem setFence_dlv (id : Nat) (u : Fence → Fence) (s : State) : (setFence id u s).dlv = s.dlv :=
    by
  exact Only.dlv (cs := [.intake]) (blank_setFence _ _ _ (by simp)) (by simp)

@[simp] theorem fenceBack_dlv (id : Nat) (s : State) : (fenceBack id s).dlv = s.dlv := by
  exact Only.dlv (cs := [.intake]) (blank_fenceBack _ _ (by simp)) (by simp)

@[simp] theorem backOut_half (q : Req) (s : State) : (backOut q s).dlv.half = s.dlv.half := by
  unfold backOut
  repeat' first
    | with_reducible rfl
    | (simp; done)
    | split
    | (refine (half_foldl (fun _ _ => ?_) _ _).trans ?_)
    | dsimp only
    | simp

@[simp] theorem deadSlot_dlv (s : State) : (deadSlot s).dlv = s.dlv := by
  exact Only.dlv (cs := [.ctr]) (blank_deadSlot _ (by simp)) (by simp)

@[simp] theorem staleWrites_half (r : Nat) (s : State) : (staleWrites r s).dlv.half = s.dlv.half := by
  unfold staleWrites
  repeat' first
    | with_reducible rfl
    | (simp; done)
    | split
    | (refine (half_foldl (fun _ _ => ?_) _ _).trans ?_)
    | dsimp only
    | simp

@[simp] theorem putWrite_half (c : Nat) (cls : BitVec 3) (tgt : WTarget) (addr : BitVec 64) (len : Nat) (ord ns :
    Bool) (alloc : BitVec 2) (colour : BitVec 8) (data : BitVec 512) (tag : BitVec 12) (s : State) : (putWrite c cls
    tgt addr len ord ns alloc colour data tag s).dlv.half = s.dlv.half := by
  unfold putWrite
  repeat' first
    | with_reducible rfl
    | (simp; done)
    | split
    | (refine (half_foldl (fun _ _ => ?_) _ _).trans ?_)
    | dsimp only
    | simp

@[simp] theorem takeBackCopies_half (s : State) : (takeBackCopies s).dlv.half = s.dlv.half := by
  unfold takeBackCopies
  repeat' first
    | with_reducible rfl
    | (simp; done)
    | split
    | (refine (half_foldl (fun _ _ => ?_) _ _).trans ?_)
    | dsimp only
    | simp

@[simp] theorem tallyNotify_dlv (t : BitVec 8) (s : State) : (tallyNotify t s).dlv = s.dlv := by
  exact Only.dlv (cs := [.tly, .ctr]) (blank_tallyNotify _ _ (by simp) (by simp)) (by simp)

@[simp] theorem fenceDone_dlv (id : Nat) (s : State) : (fenceDone id s).dlv = s.dlv := by
  exact Only.dlv (cs := [.intake]) (blank_fenceDone _ _ (by simp)) (by simp)

@[simp] theorem faultErrRing_half (s : State) : (faultErrRing s).dlv.half = s.dlv.half := by
  unfold faultErrRing
  repeat' first
    | with_reducible rfl
    | (simp; done)
    | split
    | (refine (half_foldl (fun _ _ => ?_) _ _).trans ?_)
    | dsimp only
    | simp

@[simp] theorem faultLedger_dlv (t : Nat) (s : State) : (faultLedger t s).dlv = s.dlv := by
  exact Only.dlv (cs := [.tly]) (blank_faultLedger _ _ (by simp)) (by simp)

@[simp] theorem tallyDelivered_dlv (t : BitVec 8) (l : BitVec 4) (s : State) : (tallyDelivered t l s).dlv =
    s.dlv := by
  exact Only.dlv (cs := [.tly, .ctr]) (blank_tallyDelivered _ _ _ (by simp) (by simp)) (by simp)

@[simp] theorem memberLaunched_half (k : Nat) (s : State) : (memberLaunched k s).dlv.half = s.dlv.half := by
  unfold memberLaunched
  repeat' first
    | with_reducible rfl
    | (simp; done)
    | split
    | (refine (half_foldl (fun _ _ => ?_) _ _).trans ?_)
    | dsimp only
    | simp

@[simp] theorem eventLaunched_half (k : Nat) (mirror : Bool) (s : State) : (eventLaunched k mirror s).dlv.half =
    s.dlv.half := by
  unfold eventLaunched
  repeat' first
    | with_reducible rfl
    | (simp; done)
    | split
    | (refine (half_foldl (fun _ _ => ?_) _ _).trans ?_)
    | dsimp only
    | simp

/-- A half without its room accounting: reservations and FULL. -/
def Half.butRoom (h : Half) : Half := { h with resv := 0, full := false }

theorem half_eq_of (s t : State) (h : t.dlv.half = s.dlv.half) (j : Nat) : t.half j = s.half j := by rw [State.half, State.half, h]

/-- FULL is brought up to date; nothing else of a half changes. -/
theorem noteFull_half (r : Nat) (s : State) (j : Nat) :
    (noteFull r s).half j = if j = r then { s.half r with full := decide (halfSize s r ≤ usedOf s r) } else s.half j := by
  have h : (noteFull r s).dlv.half = (s.setHalf r { s.half r with full := decide (halfSize s r ≤ usedOf s r) }).dlv.half := by
    unfold noteFull
    dsimp only
    split <;> simp
  rw [half_eq_of _ _ h, State.half_setHalf]

/-- A release changes room accounting only. -/
theorem release_butRoom (r : Nat) (s : State) (j : Nat) : ((release r s).half j).butRoom = (s.half j).butRoom := by
  unfold release
  rw [noteFull_half, State.half_setHalf_self, State.half_setHalf]
  split
  · next h => subst h; rfl
  · rfl

/-- A return of a request changes room accounting only. -/
theorem returnReq_butRoom (q : Req) (s : State) (j : Nat) : ((returnReq q s).half j).butRoom = (s.half j).butRoom := by
  unfold returnReq
  dsimp only
  have h : ∀ u : State, (bump (dlvPage + 0x088) (backOut q u)).half j = u.half j := fun u => half_eq_of _ _ (by simp) j
  rw [h]
  split
  · exact release_butRoom _ s j
  · rfl

theorem butRoom_foldl {α : Type} {g : State → α → State} (j : Nat) (hg : ∀ s a, ((g s a).half j).butRoom = (s.half j).butRoom)
    (l : List α) (s : State) : ((l.foldl g s).half j).butRoom = (s.half j).butRoom := by
  induction l generalizing s with
  | nil => rfl
  | cons a r ih => rw [List.foldl_cons, ih, hg]

/-- Steps 1 and 2 of Table 7-12: QUIESCED of that half, room accounting, and no other field of any half (R145). -/
theorem quiesceHalf_half (r : Nat) (s : State) (j : Nat) :
    ((quiesceHalf r s).half j).butRoom = if j = r then { (s.half r).butRoom with quiesced := true } else (s.half j).butRoom := by
  unfold quiesceHalf
  dsimp only
  rw [half_eq_of _ _ (skipResidues_half _ _), butRoom_foldl]
  · rw [half_eq_of _ _ (removeReqs_half _ _), State.half_setHalf]
    split
    · next h => subst h; rfl
    · rfl
  · intro u q
    split
    · rw [half_eq_of _ _ (skipMember_half _ _)]; exact release_butRoom _ _ _
    · rw [half_eq_of _ _ (skipMember_half _ _)]; exact release_butRoom _ _ _
    · exact returnReq_butRoom _ _ _

/-- A fault of a half sets FAULTED of it and nothing else of any half (R146). -/
theorem faultHalf_half (r : Nat) (s : State) (j : Nat) :
    (faultHalf r s).half j = if j = r then { s.half r with faulted := true } else s.half j := by
  unfold faultHalf
  split
  · next h =>
    split
    · next e => subst e; rw [← h]
    · rfl
  · rw [half_eq_of _ _ (skipResidues_half _ _), half_eq_of _ _ (staleWrites_half _ _), State.half_setHalf]

end Sys2Proof.Machine
end

