-- ==== Sys2Proof/Laws/Mbx.lean ====
section
/-! SUPPORT. The mailbox protocol: what an answer does to its mailbox, and how a command that passes its checks runs. -/

namespace Sys2Proof.Machine

open Sys2Proof.Safety

/-- A command's effect runs unless the block has powered down. -/
theorem State.run_up {f : State → State} {s : State} (h : Up s) : s.run f = f s.begin_ := by
  simp only [State.run]; exact if_neg h

@[simp] theorem mailbox_nextFree (s : State) (k : Nat) : s.nextFree.mailbox k = s.mailbox k := rfl
@[simp] theorem taken_begin (s : State) (m : Mbx) (op : Nat) : taken s.begin_ m op = taken s m op := rfl
@[simp] theorem sealedNamed_begin (s : State) (m : Mbx) (c : Cmd) : sealedNamed s.begin_ m c = sealedNamed s m c := rfl

@[simp] theorem perfBy_mbx (d code n : Nat) (s : State) : (perfBy d code n s).mbx = s.mbx :=
  Only.mbx (cs := [.ctr]) (blank_perfBy d code n s (by simp)) (by simp)
@[simp] theorem perf_mbx (d code : Nat) (s : State) : (perf d code s).mbx = s.mbx := perfBy_mbx d code 1 s
@[simp] theorem enqueue_mbx (o : Nat) (m : Msg) (s : State) : (enqueue o m s).mbx = s.mbx :=
  Only.mbx (cs := [.pwr, .intake]) (by simp [Only]) (by simp)

/-- The completion event leaves every mailbox. -/
@[simp] theorem completionEvent_mbx (m : Mbx) (q : BitVec 16) (s : State) : (completionEvent m q s).mbx = s.mbx :=
  Only.mbx (cs := [.pwr, .intake, .ctr]) (by simp [Only]) (by simp)

/-- A mailbox after an answer. -/
theorem respondN_mailbox (m : Mbx) (st : Byte) (res : List DW) (n : Nat) (rp : Bool) (s : State) (k : Nat) :
    (respondN m st res n rp s).mailbox k =
      if k = mbxKey m then finishMbx (s.mailbox (mbxKey m)) st res n rp else s.mailbox k := by
  have h : (respondN m st res n rp s).mbx = (s.setMailbox (mbxKey m) (finishMbx (s.mailbox (mbxKey m)) st res n rp)).mbx := by
    unfold respondN; dsimp only; split <;> simp
  rw [State.mailbox_congr _ _ k h, State.mailbox_setMailbox]

/-- What an answer shows in its mailbox, whether or not a held command follows. -/
theorem finishMbx_shows (b : Mailbox) (st : Byte) (res : List DW) (n : Nat) (rp : Bool) :
    (finishMbx b st res n rp).rspSeq = b.seq ∧ (finishMbx b st res n rp).status = st ∧
      (finishMbx b st res n rp).resLen = BitVec.ofNat 10 n ∧ (finishMbx b st res n rp).res = res ++ b.res.drop res.length ∧
      (finishMbx b st res n rp).plain = b.plain ∧ (finishMbx b st res n rp).txn = b.txn ∧
      (finishMbx b st res n rp).journal = b.journal ∧ (finishMbx b st res n rp).session = b.session := by
  unfold finishMbx; split <;> simp [loadCmd]

/-- `answer` answers the running command. -/
theorem answer_answered (m : Mbx) (st : Byte) (res : List DW) (s : State) (h : (s.mailbox (mbxKey m)).cmd.isSome) :
    Answered m st res s (answer m st res s) := by
  obtain ⟨c, hc⟩ := Option.isSome_iff_exists.mp h
  unfold Answered answer respond
  simp only [hc]
  cases hs : (s.mailbox (mbxKey m)).secured with
  | none => simp [respondN_mailbox, finishMbx_shows]
  | some x => simp [respondN_mailbox, finishMbx_shows]

/-- An answer leaves every other mailbox. -/
theorem answer_others (m : Mbx) (st : Byte) (res : List DW) (s : State) (k : Nat) (h : k ≠ mbxKey m) :
    (answer m st res s).mailbox k = s.mailbox k := by
  unfold answer respond
  dsimp only
  split
  · rfl
  · split <;> simp [respondN_mailbox, h, State.mailbox_setMailbox]

/-- An answer leaves the transaction, the session and the handshake of every mailbox. -/
theorem answer_keeps (m : Mbx) (st : Byte) (res : List DW) (s : State) (k : Nat) :
    ((answer m st res s).mailbox k).txn = (s.mailbox k).txn ∧ ((answer m st res s).mailbox k).session = (s.mailbox k).session ∧
      ((answer m st res s).mailbox k).handshake = (s.mailbox k).handshake := by
  by_cases h : k = mbxKey m
  · subst h
    unfold answer respond
    dsimp only
    split
    · simp
    · split <;> simp [respondN_mailbox, finishMbx] <;> split <;> simp [loadCmd]
  · simp [answer_others m st res s k h]

/-- A command whose checks are passed runs. -/
theorem runCmd_serves {m : Mbx} {op n : Nat} {c : Cmd} {s : State} (h : Serves m op n c s) (f : Cmd → State → State) :
    runCmd m op n f s.begin_ = f c s.begin_ := by
  have h1 : ¬(1024 < c.argLen ∨ c.args.length < n) := by have := h.short; have := h.args; omega
  simp only [runCmd, taken_begin, h.copied, sealedNamed_begin, h.clear, if_neg h1]
  rfl

end Sys2Proof.Machine
end

