-- ==== Sys2Proof/Laws/PerInstr.lean ====
section
/-! SUPPORT. What is said of each command as a term, one lemma per constructor: the frame of a command never lists the queue, and always
lists what the step itself counts. -/

namespace Sys2Proof.Laws.QueueKept

open Sys2Proof.Machine Sys2Proof.Safety

/-- The frame of the command leaves the queue out and has the output ports and the step count in it. -/
def Statement (i : Instr) : Prop := .pending ∉ mayWrite i ∧ .out ∈ mayWrite i ∧ .stepNo ∈ mayWrite i

theorem dipHandshake (dip : Fin 16) (mv : BitVec 4) (d : BitVec 512) : Statement (.dipHandshake dip mv d) := ⟨of_decide_eq_true rfl, of_decide_eq_true rfl, of_decide_eq_true rfl⟩
theorem folderSliceAnswer (dip : Fin 16) (src : BitVec 18) : Statement (.folderSliceAnswer dip src) := ⟨of_decide_eq_true rfl, of_decide_eq_true rfl, of_decide_eq_true rfl⟩
theorem sliceApply (o : Origin) (slice : Fin 8) : Statement (.sliceApply o slice) := ⟨of_decide_eq_true rfl, of_decide_eq_true rfl, of_decide_eq_true rfl⟩
theorem edgeCaught (n : Fin 1024) : Statement (.edgeCaught n) := ⟨of_decide_eq_true rfl, of_decide_eq_true rfl, of_decide_eq_true rfl⟩
theorem levelChangeSettled (n : Fin 1024) (level : Bool) : Statement (.levelChangeSettled n level) := ⟨of_decide_eq_true rfl, of_decide_eq_true rfl, of_decide_eq_true rfl⟩
theorem wiredPresentation (n : Fin 1024) : Statement (.wiredPresentation n) := ⟨of_decide_eq_true rfl, of_decide_eq_true rfl, of_decide_eq_true rfl⟩
theorem select (slice : Fin 8) : Statement (.select slice) := ⟨of_decide_eq_true rfl, of_decide_eq_true rfl, of_decide_eq_true rfl⟩
theorem levelQueueEntry (lvl : Fin 16) : Statement (.levelQueueEntry lvl) := ⟨of_decide_eq_true rfl, of_decide_eq_true rfl, of_decide_eq_true rfl⟩
theorem pacerTokenTaken (lvl : Fin 16) : Statement (.pacerTokenTaken lvl) := ⟨of_decide_eq_true rfl, of_decide_eq_true rfl, of_decide_eq_true rfl⟩
theorem arbiterDecision (ch : Fin 4) : Statement (.arbiterDecision ch) := ⟨of_decide_eq_true rfl, of_decide_eq_true rfl, of_decide_eq_true rfl⟩
theorem gatherWindowEnd (ch : Fin 4) : Statement (.gatherWindowEnd ch) := ⟨of_decide_eq_true rfl, of_decide_eq_true rfl, of_decide_eq_true rfl⟩
theorem withdrawSettle (src : BitVec 18) : Statement (.withdrawSettle src) := ⟨of_decide_eq_true rfl, of_decide_eq_true rfl, of_decide_eq_true rfl⟩
theorem launch (ch : Fin 4) : Statement (.launch ch) := ⟨of_decide_eq_true rfl, of_decide_eq_true rfl, of_decide_eq_true rfl⟩
theorem relayStageGrant (lvl : Fin 16) : Statement (.relayStageGrant lvl) := ⟨of_decide_eq_true rfl, of_decide_eq_true rfl, of_decide_eq_true rfl⟩
theorem bundleLaunch : Statement .bundleLaunch := ⟨of_decide_eq_true rfl, of_decide_eq_true rfl, of_decide_eq_true rfl⟩
theorem wchCompletion (ch : Fin 4) (cpl : BitVec 16) : Statement (.wchCompletion ch cpl) := ⟨of_decide_eq_true rfl, of_decide_eq_true rfl, of_decide_eq_true rfl⟩
theorem writeTimeout (ch : Fin 4) (tag : BitVec 12) : Statement (.writeTimeout ch tag) := ⟨of_decide_eq_true rfl, of_decide_eq_true rfl, of_decide_eq_true rfl⟩
theorem rchResponse (rs : BitVec 11) (r : BitVec 512) (rp : BitVec 32) : Statement (.rchResponse rs r rp) := ⟨of_decide_eq_true rfl, of_decide_eq_true rfl, of_decide_eq_true rfl⟩
theorem readTimeout (tag : BitVec 8) : Statement (.readTimeout tag) := ⟨of_decide_eq_true rfl, of_decide_eq_true rfl, of_decide_eq_true rfl⟩
theorem timePortValue (v : BitVec 64) (p : BitVec 4) : Statement (.timePortValue v p) := ⟨of_decide_eq_true rfl, of_decide_eq_true rfl, of_decide_eq_true rfl⟩
theorem timeStall : Statement .timeStall := ⟨of_decide_eq_true rfl, of_decide_eq_true rfl, of_decide_eq_true rfl⟩
theorem soakEnd (g : Fin 4096) : Statement (.soakEnd g) := ⟨of_decide_eq_true rfl, of_decide_eq_true rfl, of_decide_eq_true rfl⟩
theorem pacerPeriodEnd (unacked0 unacked1 unacked2 unacked3 : BitVec 32) : Statement (.pacerPeriodEnd unacked0 unacked1 unacked2 unacked3) := ⟨of_decide_eq_true rfl, of_decide_eq_true rfl, of_decide_eq_true rfl⟩
theorem minuteBoundary : Statement .minuteBoundary := ⟨of_decide_eq_true rfl, of_decide_eq_true rfl, of_decide_eq_true rfl⟩
theorem counterSnapshotCapture : Statement .counterSnapshotCapture := ⟨of_decide_eq_true rfl, of_decide_eq_true rfl, of_decide_eq_true rfl⟩
theorem tackLeaseExpiry (n : Fin 1024) : Statement (.tackLeaseExpiry n) := ⟨of_decide_eq_true rfl, of_decide_eq_true rfl, of_decide_eq_true rfl⟩
theorem sliceIdleGate (slice : Fin 8) : Statement (.sliceIdleGate slice) := ⟨of_decide_eq_true rfl, of_decide_eq_true rfl, of_decide_eq_true rfl⟩
theorem dipIdleGate (dip : Fin 16) : Statement (.dipIdleGate dip) := ⟨of_decide_eq_true rfl, of_decide_eq_true rfl, of_decide_eq_true rfl⟩
theorem cryIdleRelease : Statement .cryIdleRelease := ⟨of_decide_eq_true rfl, of_decide_eq_true rfl, of_decide_eq_true rfl⟩
theorem portResetNotify (p : PortReset) : Statement (.portResetNotify p) := ⟨of_decide_eq_true rfl, of_decide_eq_true rfl, of_decide_eq_true rfl⟩
theorem domainReady (d : Fin 30) : Statement (.domainReady d) := ⟨of_decide_eq_true rfl, of_decide_eq_true rfl, of_decide_eq_true rfl⟩
theorem domainPowerOffAck (d : Fin 30) : Statement (.domainPowerOffAck d) := ⟨of_decide_eq_true rfl, of_decide_eq_true rfl, of_decide_eq_true rfl⟩
theorem pwrTimeout (d : Fin 30) : Statement (.pwrTimeout d) := ⟨of_decide_eq_true rfl, of_decide_eq_true rfl, of_decide_eq_true rfl⟩
theorem aonPowerDown : Statement .aonPowerDown := ⟨of_decide_eq_true rfl, of_decide_eq_true rfl, of_decide_eq_true rfl⟩
theorem coldStart : Statement .coldStart := ⟨of_decide_eq_true rfl, of_decide_eq_true rfl, of_decide_eq_true rfl⟩
theorem supplyOkRise (straps : Straps) : Statement (.supplyOkRise straps) := ⟨of_decide_eq_true rfl, of_decide_eq_true rfl, of_decide_eq_true rfl⟩
theorem captureEntry : Statement .captureEntry := ⟨of_decide_eq_true rfl, of_decide_eq_true rfl, of_decide_eq_true rfl⟩
theorem fwBootReady (img : FwImage) : Statement (.fwBootReady img) := ⟨of_decide_eq_true rfl, of_decide_eq_true rfl, of_decide_eq_true rfl⟩
theorem fwBootRetry (fetchErr sigBad : Bool) : Statement (.fwBootRetry fetchErr sigBad) := ⟨of_decide_eq_true rfl, of_decide_eq_true rfl, of_decide_eq_true rfl⟩
theorem brownOut : Statement .brownOut := ⟨of_decide_eq_true rfl, of_decide_eq_true rfl, of_decide_eq_true rfl⟩
theorem warmResetEntry : Statement .warmResetEntry := ⟨of_decide_eq_true rfl, of_decide_eq_true rfl, of_decide_eq_true rfl⟩
theorem warmDrainComplete (cut : Bool) : Statement (.warmDrainComplete cut) := ⟨of_decide_eq_true rfl, of_decide_eq_true rfl, of_decide_eq_true rfl⟩
theorem warmResetRelease (straps : Straps) : Statement (.warmResetRelease straps) := ⟨of_decide_eq_true rfl, of_decide_eq_true rfl, of_decide_eq_true rfl⟩
theorem testModeSelect (on : Bool) : Statement (.testModeSelect on) := ⟨of_decide_eq_true rfl, of_decide_eq_true rfl, of_decide_eq_true rfl⟩
theorem scanEntry : Statement .scanEntry := ⟨of_decide_eq_true rfl, of_decide_eq_true rfl, of_decide_eq_true rfl⟩
theorem scanStopped : Statement .scanStopped := ⟨of_decide_eq_true rfl, of_decide_eq_true rfl, of_decide_eq_true rfl⟩
theorem scanEnd : Statement .scanEnd := ⟨of_decide_eq_true rfl, of_decide_eq_true rfl, of_decide_eq_true rfl⟩
theorem drainComplete : Statement .drainComplete := ⟨of_decide_eq_true rfl, of_decide_eq_true rfl, of_decide_eq_true rfl⟩
theorem mergeEntry (src : BitVec 18) (stolen : Bool) : Statement (.mergeEntry src stolen) := ⟨of_decide_eq_true rfl, of_decide_eq_true rfl, of_decide_eq_true rfl⟩
theorem scrubWord (unit : ScrubUnit) (store : DW) (word : DW) (r : ScrubResult) : Statement (.scrubWord unit store word r) := ⟨of_decide_eq_true rfl, of_decide_eq_true rfl, of_decide_eq_true rfl⟩
theorem errorDetected (k : ErrKind) (unit : ErrUnit) (detail : BitVec 256) : Statement (.errorDetected k unit detail) := ⟨of_decide_eq_true rfl, of_decide_eq_true rfl, of_decide_eq_true rfl⟩
theorem errorRingCopy : Statement .errorRingCopy := ⟨of_decide_eq_true rfl, of_decide_eq_true rfl, of_decide_eq_true rfl⟩
theorem ceAutoAck (e : Fin 64) : Statement (.ceAutoAck e) := ⟨of_decide_eq_true rfl, of_decide_eq_true rfl, of_decide_eq_true rfl⟩
theorem lostSummary : Statement .lostSummary := ⟨of_decide_eq_true rfl, of_decide_eq_true rfl, of_decide_eq_true rfl⟩
theorem coreFault (f : CoreFaultKind) : Statement (.coreFault f) := ⟨of_decide_eq_true rfl, of_decide_eq_true rfl, of_decide_eq_true rfl⟩
theorem coreWdog : Statement .coreWdog := ⟨of_decide_eq_true rfl, of_decide_eq_true rfl, of_decide_eq_true rfl⟩
theorem fwRestartReady (verified : Bool) : Statement (.fwRestartReady verified) := ⟨of_decide_eq_true rfl, of_decide_eq_true rfl, of_decide_eq_true rfl⟩
theorem mbxGo (m : Mbx) (data : BitVec 64) (rq : Rq) : Statement (.mbxGo m data rq) := ⟨of_decide_eq_true rfl, of_decide_eq_true rfl, of_decide_eq_true rfl⟩
theorem mbxArgsTaken (m : Mbx) : Statement (.mbxArgsTaken m) := ⟨of_decide_eq_true rfl, of_decide_eq_true rfl, of_decide_eq_true rfl⟩
theorem mbxSlow (m : Mbx) : Statement (.mbxSlow m) := ⟨of_decide_eq_true rfl, of_decide_eq_true rfl, of_decide_eq_true rfl⟩
theorem mbxNop (m : Mbx) : Statement (.mbxNop m) := ⟨of_decide_eq_true rfl, of_decide_eq_true rfl, of_decide_eq_true rfl⟩
theorem mbxInfo (m : Mbx) : Statement (.mbxInfo m) := ⟨of_decide_eq_true rfl, of_decide_eq_true rfl, of_decide_eq_true rfl⟩
theorem txnBegin (m : Mbx) : Statement (.txnBegin m) := ⟨of_decide_eq_true rfl, of_decide_eq_true rfl, of_decide_eq_true rfl⟩
theorem txnCommit (m : Mbx) : Statement (.txnCommit m) := ⟨of_decide_eq_true rfl, of_decide_eq_true rfl, of_decide_eq_true rfl⟩
theorem txnAbort (m : Mbx) : Statement (.txnAbort m) := ⟨of_decide_eq_true rfl, of_decide_eq_true rfl, of_decide_eq_true rfl⟩
theorem txnStatus (m : Mbx) : Statement (.txnStatus m) := ⟨of_decide_eq_true rfl, of_decide_eq_true rfl, of_decide_eq_true rfl⟩
theorem srcStage (m : Mbx) : Statement (.srcStage m) := ⟨of_decide_eq_true rfl, of_decide_eq_true rfl, of_decide_eq_true rfl⟩
theorem ringStage (m : Mbx) : Statement (.ringStage m) := ⟨of_decide_eq_true rfl, of_decide_eq_true rfl, of_decide_eq_true rfl⟩
theorem gateStage (m : Mbx) : Statement (.gateStage m) := ⟨of_decide_eq_true rfl, of_decide_eq_true rfl, of_decide_eq_true rfl⟩
theorem mcastStage (m : Mbx) : Statement (.mcastStage m) := ⟨of_decide_eq_true rfl, of_decide_eq_true rfl, of_decide_eq_true rfl⟩
theorem remoteStage (m : Mbx) : Statement (.remoteStage m) := ⟨of_decide_eq_true rfl, of_decide_eq_true rfl, of_decide_eq_true rfl⟩
theorem groupStage (m : Mbx) : Statement (.groupStage m) := ⟨of_decide_eq_true rfl, of_decide_eq_true rfl, of_decide_eq_true rfl⟩
theorem sysFence (m : Mbx) : Statement (.sysFence m) := ⟨of_decide_eq_true rfl, of_decide_eq_true rfl, of_decide_eq_true rfl⟩
theorem srcMask (m : Mbx) : Statement (.srcMask m) := ⟨of_decide_eq_true rfl, of_decide_eq_true rfl, of_decide_eq_true rfl⟩
theorem srcRead (m : Mbx) : Statement (.srcRead m) := ⟨of_decide_eq_true rfl, of_decide_eq_true rfl, of_decide_eq_true rfl⟩
theorem ringQuiesce (m : Mbx) : Statement (.ringQuiesce m) := ⟨of_decide_eq_true rfl, of_decide_eq_true rfl, of_decide_eq_true rfl⟩
theorem ringRead (m : Mbx) : Statement (.ringRead m) := ⟨of_decide_eq_true rfl, of_decide_eq_true rfl, of_decide_eq_true rfl⟩
theorem tenGranule (m : Mbx) : Statement (.tenGranule m) := ⟨of_decide_eq_true rfl, of_decide_eq_true rfl, of_decide_eq_true rfl⟩
theorem tenColour (m : Mbx) : Statement (.tenColour m) := ⟨of_decide_eq_true rfl, of_decide_eq_true rfl, of_decide_eq_true rfl⟩
theorem tenShare (m : Mbx) : Statement (.tenShare m) := ⟨of_decide_eq_true rfl, of_decide_eq_true rfl, of_decide_eq_true rfl⟩
theorem tenGrant (m : Mbx) : Statement (.tenGrant m) := ⟨of_decide_eq_true rfl, of_decide_eq_true rfl, of_decide_eq_true rfl⟩
theorem tenHandle (m : Mbx) : Statement (.tenHandle m) := ⟨of_decide_eq_true rfl, of_decide_eq_true rfl, of_decide_eq_true rfl⟩
theorem tenStatus (m : Mbx) : Statement (.tenStatus m) := ⟨of_decide_eq_true rfl, of_decide_eq_true rfl, of_decide_eq_true rfl⟩
theorem tenSeal (m : Mbx) : Statement (.tenSeal m) := ⟨of_decide_eq_true rfl, of_decide_eq_true rfl, of_decide_eq_true rfl⟩
theorem tenDestroy (m : Mbx) : Statement (.tenDestroy m) := ⟨of_decide_eq_true rfl, of_decide_eq_true rfl, of_decide_eq_true rfl⟩
theorem prfSet (m : Mbx) : Statement (.prfSet m) := ⟨of_decide_eq_true rfl, of_decide_eq_true rfl, of_decide_eq_true rfl⟩
theorem twinStatus (m : Mbx) : Statement (.twinStatus m) := ⟨of_decide_eq_true rfl, of_decide_eq_true rfl, of_decide_eq_true rfl⟩
theorem twinWitness (m : Mbx) : Statement (.twinWitness m) := ⟨of_decide_eq_true rfl, of_decide_eq_true rfl, of_decide_eq_true rfl⟩
theorem twinRewash (m : Mbx) : Statement (.twinRewash m) := ⟨of_decide_eq_true rfl, of_decide_eq_true rfl, of_decide_eq_true rfl⟩
theorem relayRoute (m : Mbx) : Statement (.relayRoute m) := ⟨of_decide_eq_true rfl, of_decide_eq_true rfl, of_decide_eq_true rfl⟩
theorem relayFence (m : Mbx) : Statement (.relayFence m) := ⟨of_decide_eq_true rfl, of_decide_eq_true rfl, of_decide_eq_true rfl⟩
theorem relayStatus (m : Mbx) : Statement (.relayStatus m) := ⟨of_decide_eq_true rfl, of_decide_eq_true rfl, of_decide_eq_true rfl⟩
theorem spdmMsg (m : Mbx) (req : SpdmReq) : Statement (.spdmMsg m req) := ⟨of_decide_eq_true rfl, of_decide_eq_true rfl, of_decide_eq_true rfl⟩
theorem fwStage (m : Mbx) (img : FwImage) : Statement (.fwStage m img) := ⟨of_decide_eq_true rfl, of_decide_eq_true rfl, of_decide_eq_true rfl⟩
theorem fwActivate (m : Mbx) : Statement (.fwActivate m) := ⟨of_decide_eq_true rfl, of_decide_eq_true rfl, of_decide_eq_true rfl⟩
theorem fwActivateReady : Statement .fwActivateReady := ⟨of_decide_eq_true rfl, of_decide_eq_true rfl, of_decide_eq_true rfl⟩
theorem fwFallback : Statement .fwFallback := ⟨of_decide_eq_true rfl, of_decide_eq_true rfl, of_decide_eq_true rfl⟩
theorem fwStatus (m : Mbx) : Statement (.fwStatus m) := ⟨of_decide_eq_true rfl, of_decide_eq_true rfl, of_decide_eq_true rfl⟩
theorem tlyLedger (m : Mbx) : Statement (.tlyLedger m) := ⟨of_decide_eq_true rfl, of_decide_eq_true rfl, of_decide_eq_true rfl⟩
theorem ctrConfig (m : Mbx) : Statement (.ctrConfig m) := ⟨of_decide_eq_true rfl, of_decide_eq_true rfl, of_decide_eq_true rfl⟩
theorem ctrSnapshot (m : Mbx) : Statement (.ctrSnapshot m) := ⟨of_decide_eq_true rfl, of_decide_eq_true rfl, of_decide_eq_true rfl⟩
theorem recScan (m : Mbx) : Statement (.recScan m) := ⟨of_decide_eq_true rfl, of_decide_eq_true rfl, of_decide_eq_true rfl⟩
theorem recResume (m : Mbx) : Statement (.recResume m) := ⟨of_decide_eq_true rfl, of_decide_eq_true rfl, of_decide_eq_true rfl⟩
theorem errAck (m : Mbx) (clean : Bool) (syndrome : Byte) (entry : Fin 64) : Statement (.errAck m clean syndrome entry) := ⟨of_decide_eq_true rfl, of_decide_eq_true rfl, of_decide_eq_true rfl⟩
theorem errLogfailClr (m : Mbx) (clean : Bool) (syndrome : Byte) (entry : Fin 64) : Statement (.errLogfailClr m clean syndrome entry) := ⟨of_decide_eq_true rfl, of_decide_eq_true rfl, of_decide_eq_true rfl⟩
theorem lnConsWrite (ring : BitVec 15) (a : Acc) (data : BitVec 64) (rq : Rq) : Statement (.lnConsWrite ring a data rq) := ⟨of_decide_eq_true rfl, of_decide_eq_true rfl, of_decide_eq_true rfl⟩
theorem lnRunlvlWrite (ring : BitVec 15) (a : Acc) (data : BitVec 64) (rq : Rq) : Statement (.lnRunlvlWrite ring a data rq) := ⟨of_decide_eq_true rfl, of_decide_eq_true rfl, of_decide_eq_true rfl⟩
theorem lnEoiWrite (ring : BitVec 15) (a : Acc) (data : BitVec 64) (rq : Rq) : Statement (.lnEoiWrite ring a data rq) := ⟨of_decide_eq_true rfl, of_decide_eq_true rfl, of_decide_eq_true rfl⟩
theorem tkAcqRead (n : Fin 1024) (a : Acc) (rq : Rq) : Statement (.tkAcqRead n a rq) := ⟨of_decide_eq_true rfl, of_decide_eq_true rfl, of_decide_eq_true rfl⟩
theorem tkRel (n : Fin 1024) (rq : Rq) : Statement (.tkRel n rq) := ⟨of_decide_eq_true rfl, of_decide_eq_true rfl, of_decide_eq_true rfl⟩
theorem tkBreak (n : Fin 1024) (rq : Rq) : Statement (.tkBreak n rq) := ⟨of_decide_eq_true rfl, of_decide_eq_true rfl, of_decide_eq_true rfl⟩
theorem tkLeaseWrite (n : Fin 1024) (a : Acc) (data : BitVec 64) (rq : Rq) : Statement (.tkLeaseWrite n a data rq) := ⟨of_decide_eq_true rfl, of_decide_eq_true rfl, of_decide_eq_true rfl⟩
theorem slcMaskOpGo (src : BitVec 18) (value : Bool) (rq : Rq) : Statement (.slcMaskOpGo src value rq) := ⟨of_decide_eq_true rfl, of_decide_eq_true rfl, of_decide_eq_true rfl⟩
theorem gtUpdGo (rq : Rq) : Statement (.gtUpdGo rq) := ⟨of_decide_eq_true rfl, of_decide_eq_true rfl, of_decide_eq_true rfl⟩
theorem gateUpdate : Statement .gateUpdate := ⟨of_decide_eq_true rfl, of_decide_eq_true rfl, of_decide_eq_true rfl⟩
theorem dlvRstgGo (rq : Rq) : Statement (.dlvRstgGo rq) := ⟨of_decide_eq_true rfl, of_decide_eq_true rfl, of_decide_eq_true rfl⟩
theorem slcSrcGo (rq : Rq) : Statement (.slcSrcGo rq) := ⟨of_decide_eq_true rfl, of_decide_eq_true rfl, of_decide_eq_true rfl⟩
theorem slcSrcSelWrite (a : Acc) (data : BitVec 64) (rq : Rq) : Statement (.slcSrcSelWrite a data rq) := ⟨of_decide_eq_true rfl, of_decide_eq_true rfl, of_decide_eq_true rfl⟩
theorem prfSelWrite (a : Acc) (data : BitVec 64) (rq : Rq) : Statement (.prfSelWrite a data rq) := ⟨of_decide_eq_true rfl, of_decide_eq_true rfl, of_decide_eq_true rfl⟩
theorem profileChangeComplete : Statement .profileChangeComplete := ⟨of_decide_eq_true rfl, of_decide_eq_true rfl, of_decide_eq_true rfl⟩
theorem errCoreRestart (rq : Rq) : Statement (.errCoreRestart rq) := ⟨of_decide_eq_true rfl, of_decide_eq_true rfl, of_decide_eq_true rfl⟩
theorem errRingBaseWrite (a : Acc) (data : BitVec 64) (rq : Rq) : Statement (.errRingBaseWrite a data rq) := ⟨of_decide_eq_true rfl, of_decide_eq_true rfl, of_decide_eq_true rfl⟩
theorem consIndexWrite (r : ConsReg) (a : Acc) (data : BitVec 64) (rq : Rq) : Statement (.consIndexWrite r a data rq) := ⟨of_decide_eq_true rfl, of_decide_eq_true rfl, of_decide_eq_true rfl⟩
theorem arbiterConfigWrite (r : ArbReg) (a : Acc) (data : BitVec 64) (rq : Rq) : Statement (.arbiterConfigWrite r a data rq) := ⟨of_decide_eq_true rfl, of_decide_eq_true rfl, of_decide_eq_true rfl⟩
theorem smtLaneCfgWrite (a : Acc) (data : BitVec 64) (rq : Rq) : Statement (.smtLaneCfgWrite a data rq) := ⟨of_decide_eq_true rfl, of_decide_eq_true rfl, of_decide_eq_true rfl⟩
theorem statusFlagClear (f : FlagReg) (tag : BitVec 4) (rq : Rq) : Statement (.statusFlagClear f tag rq) := ⟨of_decide_eq_true rfl, of_decide_eq_true rfl, of_decide_eq_true rfl⟩
theorem counterWrite (offset : BitVec 26) (a : Acc) (data : BitVec 64) (rq : Rq) : Statement (.counterWrite offset a data rq) := ⟨of_decide_eq_true rfl, of_decide_eq_true rfl, of_decide_eq_true rfl⟩
theorem registerWrite (q : BitVec 128) (qp : BitVec 8) : Statement (.registerWrite q qp) := ⟨of_decide_eq_true rfl, of_decide_eq_true rfl, of_decide_eq_true rfl⟩
theorem flitReceived (f : RxFlit) : Statement (.flitReceived f) := ⟨of_decide_eq_true rfl, of_decide_eq_true rfl, of_decide_eq_true rfl⟩
theorem flitTransmit (l : Seam) : Statement (.flitTransmit l) := ⟨of_decide_eq_true rfl, of_decide_eq_true rfl, of_decide_eq_true rfl⟩
theorem replayTimeout (l : Seam) (seq : BitVec 12) : Statement (.replayTimeout l seq) := ⟨of_decide_eq_true rfl, of_decide_eq_true rfl, of_decide_eq_true rfl⟩
theorem ackTimer (l : Seam) : Statement (.ackTimer l) := ⟨of_decide_eq_true rfl, of_decide_eq_true rfl, of_decide_eq_true rfl⟩
theorem darnSend (l : Seam) : Statement (.darnSend l) := ⟨of_decide_eq_true rfl, of_decide_eq_true rfl, of_decide_eq_true rfl⟩
theorem heartbeatSend : Statement .heartbeatSend := ⟨of_decide_eq_true rfl, of_decide_eq_true rfl, of_decide_eq_true rfl⟩
theorem retrainStart (l : Seam) : Statement (.retrainStart l) := ⟨of_decide_eq_true rfl, of_decide_eq_true rfl, of_decide_eq_true rfl⟩
theorem retrainFail (l : Seam) : Statement (.retrainFail l) := ⟨of_decide_eq_true rfl, of_decide_eq_true rfl, of_decide_eq_true rfl⟩
theorem graceEndRinse (l : Seam) : Statement (.graceEndRinse l) := ⟨of_decide_eq_true rfl, of_decide_eq_true rfl, of_decide_eq_true rfl⟩
theorem laneDrop (lane : Fin 8) : Statement (.laneDrop lane) := ⟨of_decide_eq_true rfl, of_decide_eq_true rfl, of_decide_eq_true rfl⟩
theorem laneAdd (lane : Fin 8) : Statement (.laneAdd lane) := ⟨of_decide_eq_true rfl, of_decide_eq_true rfl, of_decide_eq_true rfl⟩
theorem sessionOpen (blk : BitVec 11) (strap : Bool) : Statement (.sessionOpen blk strap) := ⟨of_decide_eq_true rfl, of_decide_eq_true rfl, of_decide_eq_true rfl⟩
theorem sessionClose (blk : BitVec 11) (strap : Bool) : Statement (.sessionClose blk strap) := ⟨of_decide_eq_true rfl, of_decide_eq_true rfl, of_decide_eq_true rfl⟩
theorem trainingTimeout : Statement .trainingTimeout := ⟨of_decide_eq_true rfl, of_decide_eq_true rfl, of_decide_eq_true rfl⟩
theorem trainingRetry : Statement .trainingRetry := ⟨of_decide_eq_true rfl, of_decide_eq_true rfl, of_decide_eq_true rfl⟩
theorem mirrorReceived : Statement .mirrorReceived := ⟨of_decide_eq_true rfl, of_decide_eq_true rfl, of_decide_eq_true rfl⟩
theorem dirtyReceived : Statement .dirtyReceived := ⟨of_decide_eq_true rfl, of_decide_eq_true rfl, of_decide_eq_true rfl⟩
theorem snapshotReceived : Statement .snapshotReceived := ⟨of_decide_eq_true rfl, of_decide_eq_true rfl, of_decide_eq_true rfl⟩
theorem forwardReceived : Statement .forwardReceived := ⟨of_decide_eq_true rfl, of_decide_eq_true rfl, of_decide_eq_true rfl⟩
theorem mirrorSend : Statement .mirrorSend := ⟨of_decide_eq_true rfl, of_decide_eq_true rfl, of_decide_eq_true rfl⟩
theorem snapshotSend : Statement .snapshotSend := ⟨of_decide_eq_true rfl, of_decide_eq_true rfl, of_decide_eq_true rfl⟩
theorem prepareReceived : Statement .prepareReceived := ⟨of_decide_eq_true rfl, of_decide_eq_true rfl, of_decide_eq_true rfl⟩
theorem voteReceived : Statement .voteReceived := ⟨of_decide_eq_true rfl, of_decide_eq_true rfl, of_decide_eq_true rfl⟩
theorem voteTimeout : Statement .voteTimeout := ⟨of_decide_eq_true rfl, of_decide_eq_true rfl, of_decide_eq_true rfl⟩
theorem decideReceived : Statement .decideReceived := ⟨of_decide_eq_true rfl, of_decide_eq_true rfl, of_decide_eq_true rfl⟩
theorem decideAckReceived : Statement .decideAckReceived := ⟨of_decide_eq_true rfl, of_decide_eq_true rfl, of_decide_eq_true rfl⟩
theorem partnerLoss : Statement .partnerLoss := ⟨of_decide_eq_true rfl, of_decide_eq_true rfl, of_decide_eq_true rfl⟩
theorem takeoverEventApply (src : BitVec 18) : Statement (.takeoverEventApply src) := ⟨of_decide_eq_true rfl, of_decide_eq_true rfl, of_decide_eq_true rfl⟩
theorem takeoverComplete : Statement .takeoverComplete := ⟨of_decide_eq_true rfl, of_decide_eq_true rfl, of_decide_eq_true rfl⟩
theorem leaseTake : Statement .leaseTake := ⟨of_decide_eq_true rfl, of_decide_eq_true rfl, of_decide_eq_true rfl⟩
theorem leaseRenew : Statement .leaseRenew := ⟨of_decide_eq_true rfl, of_decide_eq_true rfl, of_decide_eq_true rfl⟩
theorem leaseLapse : Statement .leaseLapse := ⟨of_decide_eq_true rfl, of_decide_eq_true rfl, of_decide_eq_true rfl⟩
theorem rewash : Statement .rewash := ⟨of_decide_eq_true rfl, of_decide_eq_true rfl, of_decide_eq_true rfl⟩
theorem rewashInfoReceived : Statement .rewashInfoReceived := ⟨of_decide_eq_true rfl, of_decide_eq_true rfl, of_decide_eq_true rfl⟩
theorem rewashEntriesReceived : Statement .rewashEntriesReceived := ⟨of_decide_eq_true rfl, of_decide_eq_true rfl, of_decide_eq_true rfl⟩
theorem rewashDoneReceived : Statement .rewashDoneReceived := ⟨of_decide_eq_true rfl, of_decide_eq_true rfl, of_decide_eq_true rfl⟩
theorem tallyCkptReceived : Statement .tallyCkptReceived := ⟨of_decide_eq_true rfl, of_decide_eq_true rfl, of_decide_eq_true rfl⟩
theorem bundleReceived (blk : BitVec 11) (strap : Bool) : Statement (.bundleReceived blk strap) := ⟨of_decide_eq_true rfl, of_decide_eq_true rfl, of_decide_eq_true rfl⟩
theorem inboxRelease (ring : BitVec 15) : Statement (.inboxRelease ring) := ⟨of_decide_eq_true rfl, of_decide_eq_true rfl, of_decide_eq_true rfl⟩
theorem relayDiscard (ring : BitVec 15) : Statement (.relayDiscard ring) := ⟨of_decide_eq_true rfl, of_decide_eq_true rfl, of_decide_eq_true rfl⟩
theorem bundleAckReceived (blk : BitVec 11) (strap : Bool) : Statement (.bundleAckReceived blk strap) := ⟨of_decide_eq_true rfl, of_decide_eq_true rfl, of_decide_eq_true rfl⟩
theorem bundleResendReceived (blk : BitVec 11) (strap : Bool) : Statement (.bundleResendReceived blk strap) := ⟨of_decide_eq_true rfl, of_decide_eq_true rfl, of_decide_eq_true rfl⟩
theorem relayPathFail (blk : BitVec 11) (strap : Bool) : Statement (.relayPathFail blk strap) := ⟨of_decide_eq_true rfl, of_decide_eq_true rfl, of_decide_eq_true rfl⟩
theorem relayPathRetry (blk : BitVec 11) (strap : Bool) : Statement (.relayPathRetry blk strap) := ⟨of_decide_eq_true rfl, of_decide_eq_true rfl, of_decide_eq_true rfl⟩
theorem rtpRead (q : BitVec 128) (qp : BitVec 8) : Statement (.rtpRead q qp) := ⟨of_decide_eq_true rfl, of_decide_eq_true rfl, of_decide_eq_true rfl⟩
theorem smtLnRdyRise (lane : Fin 8) : Statement (.smtLnRdyRise lane) := ⟨of_decide_eq_true rfl, of_decide_eq_true rfl, of_decide_eq_true rfl⟩

end Sys2Proof.Laws.QueueKept
end

