-- ==== Sys2Proof/Laws/Port.lean ====
section
/-! SUPPORT. The register target port: the rows as requests, and what each kind of access comes to. -/

namespace Sys2Proof.Machine

open Sys2Proof.Safety

@[simp] theorem accepting_begin (s : State) : accepting s.begin_ = accepting s := rfl
@[simp] theorem rtpDecide_begin (s : State) (q : RtpReq) : rtpDecide s.begin_ q = rtpDecide s q := rfl
@[simp] theorem sealedTarget_begin (s : State) (t : BitVec 8) (r : Reg) : sealedTarget s.begin_ t r = sealedTarget s t r := rfl
@[simp] theorem expertSealed_begin (s : State) (q : RtpReq) (r : Reg) : expertSealed s.begin_ q r = expertSealed s q r := rfl
@[simp] theorem needsSlices_begin (s : State) (q : RtpReq) (r : Reg) : needsSlices s.begin_ q r = needsSlices s q r := rfl
@[simp] theorem gatedOf_begin (s : State) (l : List Nat) : gatedOf s.begin_ l = gatedOf s l := rfl

@[simp] theorem flagWrite_begin (f : FlagReg) (tag : BitVec 4) (s : State) : flagWrite f tag s.begin_ = flagWrite f tag s := rfl

/-- Every row of the port runs its request. -/
theorem exec_port {c : Instr} {q : RtpReq} {s : State} (h : portRequest s c = some q) : exec c s = .next (s.run (doRtp q)) := by
  cases c <;> simp only [portRequest, Option.some.injEq, reduceCtorEq] at h
  case registerWrite w p =>
    split at h <;> simp only [Option.some.injEq, reduceCtorEq] at h
    next hw => subst h; simp only [exec, execRegisterWrite, State.run, doRegisterWrite, hw, if_true]
  case rtpRead w p =>
    split at h <;> simp only [Option.some.injEq, reduceCtorEq] at h
    next hw => subst h; simp only [exec, execRtpRead, State.run, doRtpRead, hw, Bool.false_eq_true, if_false]
  case statusFlagClear f tag rq =>
    subst h; simp only [exec, execStatusFlagClear, State.run, doStatusFlagClear, flagWrite_begin]
  all_goals (subst h; rfl)

/-- A write that is let through. -/
theorem doRtp_write {c : Instr} {q : RtpReq} {r : Reg} {k : Nat} {s : State} (h : LetsWrite c q r k s) :
    exec c s = .next (rtpAnswer 0 .ok (writeReg q (regTen (s.region k)) r (rtpTaken s.begin_))) := by
  rw [exec_port h.asks, State.run_up h.up, doRtp]
  have hq : s.begin_.gates.rtpHeld = [] := h.first
  simp only [accepting_begin, h.taking, hq, rtpOne, h.parity, h.aligned, h.register, h.gate, h.write, h.unsealed, h.expert, h.awake,
    rtpDecide_begin, rtpAdmitted, rtpServe, sealedTarget_begin, expertSealed_begin, needsSlices_begin, gatedOf_begin, State.region_begin]
  rfl

/-- What logging an error may write: no mailbox, tenant, Tack, link, relay, intake, power or global register. -/
theorem logErr_only (x : ErrIn) (s : State) :
    Only [.out, .freeCtr, .slc, .dlv, .gates, .fw, .twin, .tly, .ctr, .log] s (logErr x s) := by
  unfold Only logErr
  repeat' first
    | with_reducible rfl
    | (simp; done)
    | (simp [logBypass]; done)
    | split
    | dsimp only
    | simp [logBypass]

theorem portParity_only (port : Nat) (s : State) :
    Only [.out, .freeCtr, .slc, .dlv, .gates, .fw, .twin, .tly, .ctr, .log] s (portParity port s) := logErr_only _ s

end Sys2Proof.Machine
end

