-- ==== Sys2Proof/WellFormed.lean ====
section
/-! DEFINITION. Which command terms the block's ports and units can form. Most bounds are in the operand types; these are the
rest: the unit of an error fits its kind, a unit's value fits its type, an address lies where the row's register lies. -/

namespace Sys2Proof

/-- The unit types that an error of each kind names (Table 16-2, column Unit type). An error of SRAM names the unit of the
word, or the block; ZERO_FAIL the unit read back. -/
def kindUnit (k : ErrKind) (t : Nat) : Bool :=
  match k with
  | .violation => t = 0x7
  | .sramCe => t ≤ 0x6 || t = 0x8 || t = 0xC
  | .zeroFail => (1 ≤ t && t ≤ 0x6) || t = 0x8
  | .timeStall | .portParity => t = 0xA
  | .guarShort => t = 0xE
  | .mbxSlow | .journalUe => t = 0xC
  | .twinTakeover | .seamRetrain | .seamDown | .seamRinse | .seamLaneDrop | .seamLaneAdd | .seamMismatch
  | .bundleResend | .relayReject | .relayPathFail => t = 0xB
  | .relayDiscard | .ringUe => t = 0x2
  | .coreDfault | .coreLockstep | .coreWdog | .fwHalt => t = 0xD
  | .srcUe => t = 0x1
  | .writeErr => t = 0x2 || t = 0x9
  | .regionUe => t = 0x3
  | .slotUe => t = 0x4
  | .entryUe => t = 0x5
  | .keyUe => t = 0x6
  | .tallyUe => t = 0x8
  | .queueUe | .controlUe | .logUe => t = 0x0
  | .pwrTimeout => t = 0xF

/-- Values that the UNIT encoding of each type takes (Table 16-1). -/
def unitFits (u : ErrUnit) : Bool :=
  let v := u.val.toNat
  match u.typ.toNat with
  | 0x0 => v = 0
  | 0x1 => v < 262144
  | 0x2 => v < 32768
  | 0x3 => (v / 8192 = 0 && v < 2048) || (v / 8192 = 1 && v % 8192 < 512) || (v / 8192 = 2 && v % 8192 < 4096)
  | 0x4 => v < 65536
  | 0x5 => v / 16384 ≤ 2 && v % 16384 < 4096
  | 0x6 | 0x8 => v < 256
  | 0x7 => v < 1024
  | 0x9 => v ≤ 0x100
  | 0xA => v ≤ 0x16
  | 0xB => v < 8192
  | 0xC => v < 8 || (256 ≤ v && v < 512)
  | 0xD | 0xE => v = 0
  | _ => v < 30

/-- Class-K counters and performance-counter values that COUNTER_WRITE names lie on 8-byte offsets of the counter pages
(Table 18-7). -/
def counterOffset (o : Nat) : Bool := o % 8 = 0 && decide (0x10000 ≤ o) && decide (o < 0x200000)

/-- A secured SPDM message carries at most 256 argument DWs (Table 9-3). -/
def spdmFits : SpdmReq → Bool
  | .secured _ args => args.length ≤ 256
  | _ => true

/-- The commands that can reach the block. -/
def WellFormed : Instr → Bool
  | .errorDetected k u _ => kindUnit k u.typ.toNat && unitFits u
  | .scrubWord u _ _ _ => unitFits u.unit && (!u.log || decide (u.unit.typ = 0))
  | .counterWrite o _ _ _ => counterOffset o.toNat
  | .spdmMsg _ r => spdmFits r
  | _ => true

end Sys2Proof
end

