-- ==== Sys2Proof/Tests/Slice0.lean ====
section
/-! SUPPORT. Tests on small states, and for each statement a state and operands that meet its hypotheses. -/

namespace Sys2Proof.Tests

set_option Elab.async false

open Sys2Proof Sys2Proof.Machine Sys2Proof.Safety

/-! ### Well-formedness -/

/-- The well-formed bounds are tight: the last value that each check lets through, and the first that it refuses. -/
theorem test_wf_unit : WellFormed (.errorDetected .srcUe ⟨0x1, 262143⟩ 0) = true ∧
    WellFormed (.errorDetected .srcUe ⟨0x1, 262144⟩ 0) = false := by decide

theorem test_wf_kind : WellFormed (.errorDetected .pwrTimeout ⟨0xF, 29⟩ 0) = true ∧
    WellFormed (.errorDetected .pwrTimeout ⟨0x2, 29⟩ 0) = false := by decide

theorem test_wf_scrub : WellFormed (.scrubWord ⟨⟨0xF, 29⟩, false⟩ 0 0 .clean) = true ∧
    WellFormed (.scrubWord ⟨⟨0xF, 30⟩, false⟩ 0 0 .clean) = false ∧ WellFormed (.scrubWord ⟨⟨0xF, 29⟩, true⟩ 0 0 .clean) = false := by decide

theorem test_wf_counter : WellFormed (.counterWrite 0x1FFFF8 .w8 0 ⟨0, 0, 0, true⟩) = true ∧
    WellFormed (.counterWrite 0x1FFFFC .w8 0 ⟨0, 0, 0, true⟩) = false ∧
    WellFormed (.counterWrite 0x200000 .w8 0 ⟨0, 0, 0, true⟩) = false := by decide

theorem test_wf_spdm : WellFormed (.spdmMsg (.ctl 0) (.secured 0 (List.replicate 256 0))) = true ∧
    WellFormed (.spdmMsg (.ctl 0) (.secured 0 (List.replicate 257 0))) = false := by decide +kernel

/-! ### Small states -/

def rq0 : Rq := { port := 0, reqid := 0, colour := 0, parityOk := true }

/-- A block that runs, every domain on, ranking, Twifomon READY, alone by its straps (Tables 6-10, 11-1, 17-3). -/
def up : State :=
  { State.reset with
    pwr := { Pwr.reset with phase := .run, supplyOk := true, on := 0x3FFFFFFF#30 },
    glb := { Glb.reset with capture := false, stopped := false, ranking := true, ticks := 1 },
    fw := { Fw.reset with phase := .ready }, twin := { Twin.reset with state := .solo, absent := true } }

def m7 : Mbx := .ctl 7

def cmdOf (op : Nat) (args : List DW) : Cmd := { opcode := BitVec.ofNat 16 op, seq := 1, argLen := 4 * args.length, note := false, args }

/-- Mailbox 7 runs a command. -/
def serving (op : Nat) (args : List DW) (s : State) : State :=
  s.setMailbox 7 { s.mailbox 7 with opcode := BitVec.ofNat 16 op, seq := 1, go := true, busy := .taken, cmd := some (cmdOf op args) }

theorem serves_of {m : Mbx} {op n : Nat} {c : Cmd} {s : State}
    (h : s.pwr.phase ≠ .down ∧ (s.mailbox (mbxKey m)).cmd.isSome = true ∧ taken s m op = some c ∧ c.argLen ≤ 1024 ∧ n ≤ c.args.length ∧
      sealedNamed s m c = false) : Serves m op n c s :=
  ⟨h.1, h.2.1, h.2.2.1, h.2.2.2.1, h.2.2.2.2.1, h.2.2.2.2.2⟩

/-- The commands served, with the fewest arguments, at the ends of their ranges. -/
theorem wit_Serves : ∀ p ∈ [(0x0000, []), (0x0001, []), (0x0100, []), (0x0101, []), (0x0102, []), (0x0103, []), (0x0120, []),
      (0x0201, [262143]), (0x0211, [32767]), (0x0305, [255]), (0x0500, []), (0x0812, []), (0x0702, [2047])],
    Serves m7 p.1 p.2.length (cmdOf p.1 p.2) (serving p.1 p.2 up) := by
  intro p hp
  exact serves_of (by revert p hp; decide +kernel)

theorem wit_QueryCommandsAnswer : domOn (serving 0x0201 [262143] up) (dSlc (sliceOf (262143 : BitVec 18))) = true ∧
    Serves m7 0x0103 0 (cmdOf 0x0103 []) (serving 0x0103 [] (setTxn m7 (some Txn.empty) up)) ∧
    ((serving 0x0103 [] (setTxn m7 (some Txn.empty) up)).mailbox 7).txn = some Txn.empty ∧
    ownBlk (serving 0x0702 [2047] up) ≠ 0x7FF := by
  refine ⟨by decide +kernel, serves_of (by decide +kernel), by decide +kernel, by decide +kernel⟩

/-- One entry of each kind: a masked source of tenant 0, an empty ring, an invalid region, a set of one ring, an empty remote target, a
group. -/
def oneItem : List (Nat × List DW) :=
  [(0x0110, [262143, 1, 2, 0]), (0x0111, [32767, 1, 0, 0, 0, 0, 0, 0, 0, 0]), (0x0112, [1, 16382, 0, 0, 0, 0, 0, 0, 0]),
    (0x0113, [4095, 256, 0]), (0x0114, [8191, 1, 0, 0]), (0x0115, [4095, 1, 0, 0])]

/-- A block with a transaction open and one command to stage. -/
def staging (p : Nat × List DW) (s : State) : State := serving p.1 p.2 (setTxn m7 (some Txn.empty) s)

theorem wit_TransactionIsOpenedStagedAndAborted :
    Serves m7 0x0100 0 (cmdOf 0x0100 []) (serving 0x0100 [] up) ∧ ((serving 0x0100 [] up).mailbox 7).txn = none ∧ ((serving 0x0100 [] up).mailbox 7).aborted = false ∧
    ∀ p ∈ oneItem, Serves m7 p.1 1 (cmdOf p.1 p.2) (staging p up) ∧ ownBlk (staging p up) ≠ 0x7FF ∧ ∃ items, parseStage p.1 p.2 = some items ∧
      ((staging p up).mailbox 7).txn = some Txn.empty ∧ items.any (itemSealed (staging p up) (insideOf (staging p up) m7)) = false ∧
      items.all (itemOk (staging p up) (stagerOf m7) (items.foldl addItem Txn.empty)) = true ∧ txnFits (items.foldl addItem Txn.empty) = true := by
  refine ⟨serves_of (by decide +kernel), by decide +kernel, by decide +kernel, fun p hp => ⟨serves_of (by revert p hp; decide +kernel), by revert p hp; decide +kernel,
    (parseStage p.1 p.2).getD [], by revert p hp; decide +kernel, by revert p hp; decide +kernel, by revert p hp; decide +kernel,
    by revert p hp; decide +kernel, by revert p hp; decide +kernel⟩⟩


/-- 1,024 groups fill a transaction (Table 10-1). -/
def fullTxn : Txn := { Txn.empty with groups := (List.range 1024).map fun k => (k + 1, 0) }

theorem wit_StagingIsAllOrNone :
    (let p : Nat × List DW := (0x0115, [0, 1, 0, 0])
     Serves m7 p.1 1 (cmdOf p.1 p.2) (staging p up) ∧ ∃ items, parseStage p.1 p.2 = some items ∧
      items.any (itemSealed (staging p up) (insideOf (staging p up) m7)) = false ∧
      items.all (itemOk (staging p up) (stagerOf m7) (items.foldl addItem Txn.empty)) = false) ∧
    (let p : Nat × List DW := (0x0115, [4095, 1, 0, 0])
     let s := serving p.1 p.2 (setTxn m7 (some fullTxn) up)
     Serves m7 p.1 1 (cmdOf p.1 p.2) s ∧ ∃ items, parseStage p.1 p.2 = some items ∧ items.any (itemSealed s (insideOf s m7)) = false ∧
      items.all (itemOk s (stagerOf m7) (items.foldl addItem fullTxn)) = true ∧ txnFits (items.foldl addItem fullTxn) = false) ∧
    (let p : Nat × List DW := (0x0115, [4095, 1, 0x50000, 0])
     let s := (staging p up).setTenantR 5 { tenantD 5 with isSealed := true }
     Serves m7 p.1 1 (cmdOf p.1 p.2) s ∧ ∃ items, parseStage p.1 p.2 = some items ∧ items.any (itemSealed s (insideOf s m7)) = true) := by
  refine ⟨⟨serves_of (by decide +kernel), (parseStage 0x0115 [0, 1, 0, 0]).getD [], by decide +kernel⟩,
    ⟨serves_of (by decide +kernel), (parseStage 0x0115 [4095, 1, 0, 0]).getD [], by decide +kernel⟩,
    ⟨serves_of (by decide +kernel), (parseStage 0x0115 [4095, 1, 0x50000, 0]).getD [], by decide +kernel⟩⟩

theorem wit_TenantCommandsSetTheirRecord :
    (let s := serving 0x0300 [4095, 1, 255] up
     Serves m7 0x0300 3 (cmdOf 0x0300 [4095, 1, 255]) s ∧ retiredTen s 255 = false ∧ sealedTen s 255 = false ∧
      (∀ i < 1, sealedTen s (s.owner (4095 + i)) = false ∧ granuleEnabled s (4095 + i) = false ∧
        coveredByOther s 255 (0x800000 + 8 * (4095 + i)) (0x800000 + 8 * (4095 + i) + 7) = false)) ∧
    (let s := serving 0x0301 [255, 255] up
     Serves m7 0x0301 2 (cmdOf 0x0301 [255, 255]) s ∧ retiredTen s 255 = false ∧ colourTaken s 255 255 = false ∧ sealedTen s 255 = false ∧
      ∀ g ∈ [0, 1, 2], regionsOf s g 255 = []) ∧
    (let s := serving 0x0302 [255, 0] up
     Serves m7 0x0302 2 (cmdOf 0x0302 [255, 0]) s ∧ guarOfTen s 255 ≤ 0) ∧
    (let s := serving 0x0303 [255, 3] up
     Serves m7 0x0303 2 (cmdOf 0x0303 [255, 3]) s ∧ sealedTen s 255 = false) ∧
    (let s := serving 0x0304 [255, 0xFFFFFFFF] up
     Serves m7 0x0304 2 (cmdOf 0x0304 [255, 0xFFFFFFFF]) s ∧ retiredTen s 255 = false ∧ handleTaken s 255 0xFFFFFFFF = false ∧
      sealedTen s 255 = false) := by
  refine ⟨⟨serves_of (by decide +kernel), by decide +kernel⟩, ⟨serves_of (by decide +kernel), by decide +kernel⟩,
    ⟨serves_of (by decide +kernel), by decide +kernel⟩, ⟨serves_of (by decide +kernel), by decide +kernel⟩,
    ⟨serves_of (by decide +kernel), by decide +kernel⟩⟩

def logged (k : Nat) (s : State) : State :=
  s.setLogEnt k (some
    { kind := 0, cls := clsCE, multi := false, escalated := false, unit := uCore, acked := false, count := 1, lseq := 0, first := 0, last := 0,
      detail := 0, form := 0, copyNo := 0, copyOk := false })

def ringedLog (s : State) : State := s.upLog fun l => { l with base := 1 }

theorem wit_TallyCounterAndLogCommandsTakeEffect :
    Serves m7 0x0600 4 (cmdOf 0x0600 [255, 0x1000, 0, 8]) (serving 0x0600 [255, 0x1000, 0, 8] up) ∧ up.tly.final = [] ∧
    Serves m7 0x0601 3 (cmdOf 0x0601 [29, 7, 255]) (serving 0x0601 [29, 7, 255] up) ∧
    Serves m7 0x0602 3 (cmdOf 0x0602 [0x1000, 0, 1]) (serving 0x0602 [0x1000, 0, 1] up) ∧
    (let s := serving 0x0902 [63] (ringedLog (logged 63 up))
     Serves m7 0x0902 1 (cmdOf 0x0902 [63]) s ∧ (s.logEnt 63).isSome = true ∧ errRingOn s = true) ∧
    (let s := serving 0x0902 [63] (logged 63 up)
     Serves m7 0x0902 1 (cmdOf 0x0902 [63]) s ∧ ((s.logEnt 63).map LogEnt.acked) = some false ∧ errRingOn s = false ∧ ∀ k, s.lostOf k = 0) ∧
    (Serves m7 0x0903 1 (cmdOf 0x0903 [15]) (serving 0x0903 [15] up) ∧ (serving 0x0903 [15] up).log.bypass = false) := by
  refine ⟨serves_of (by decide +kernel), rfl, serves_of (by decide +kernel), serves_of (by decide +kernel), ⟨serves_of (by decide +kernel), by decide +kernel⟩,
    ⟨serves_of (by decide +kernel), by decide +kernel, by decide +kernel, fun _ => rfl⟩, ⟨serves_of (by decide +kernel), by decide +kernel⟩⟩

def scanning (s : State) : State := { s with glb := { s.glb with recovery := true } }

theorem mbxKey_seven (n : Mbx) (h : n ≠ m7) : 7 ≠ mbxKey n := by
  intro e
  cases n with
  | ctl k => exact h (congrArg Mbx.ctl (Fin.ext e.symm))
  | ten t => simp only [mbxKey] at e; omega

/-- On a block whose other mailboxes rest, nothing else waits beside a command of mailbox 7. -/
theorem nothingElse_serving (op : Nat) (args : List DW) (s : State) (hm : s.mbx = []) (ha : s.fw.asked = []) (hv : s.fw.voteDestroy = none)
    (hr : s.slc.maskRun = none) : NothingElseWaits m7 (serving op args s) :=
  ⟨fun n hn => .inl (by rw [serving, State.mailbox_setMailbox, if_neg (fun e => mbxKey_seven n hn e.symm), State.mailbox, hm]; rfl), ha, hv, hr⟩

theorem wit_WaitingCommandsStartTheirWork :
    (let s := serving 0x0120 [] up
     Serves m7 0x0120 0 (cmdOf 0x0120 []) s ∧ NothingElseWaits m7 s ∧ ∀ q, (flushAll s.begin_).queue q = []) ∧
    (let s := serving 0x0200 [0x8003FFFF] up
     Serves m7 0x0200 1 (cmdOf 0x0200 [0x8003FFFF]) s ∧ NothingElseWaits m7 s ∧ domOn s (dSlc (sliceOf 262143#18)) = true ∧
      (s.dyn 262143).st ≠ .quarantined ∧ isPaired s = false ∧ ((maskOp 262143 true s.begin_).dyn 262143).withdraw = none) ∧
    (let s := serving 0x0210 [32767] up
     Serves m7 0x0210 1 (cmdOf 0x0210 [32767]) s ∧ NothingElseWaits m7 s ∧ (∀ d, s.heldL d = []) ∧ s.intake.fences = [] ∧ ungranted s = [] ∧
      (∀ ch r qs n ep ent, Grant.recs r qs n true ep ent ∉ s.grants ch) ∧ (∀ k, residueOn s k 32767 = []) ∧ halfDrained s 32767 = true) ∧
    (let s := serving 0x0400 [3] up
     Serves m7 0x0400 1 (cmdOf 0x0400 [3]) s ∧ admission s Txn.empty (ceilOf s 3) = true) ∧
    (let s := serving 0x0400 [0] up
     Serves m7 0x0400 1 (cmdOf 0x0400 [0]) s ∧ NothingElseWaits m7 s ∧ admission s Txn.empty (ceilOf s 0) = true ∧ s.glb.prfBusy = false ∧
      s.glb.prfActive = 0) ∧
    (let s := serving 0x0900 [] { up with glb := { up.glb with stopped := true } }
     Serves m7 0x0900 0 (cmdOf 0x0900 []) s ∧ NothingElseWaits m7 s ∧ s.glb.stopped = true) ∧
    (let s := serving 0x0901 [0, 4096] (scanning { up with glb := { up.glb with stopped := true, capture := true } })
     Serves m7 0x0901 2 (cmdOf 0x0901 [0, 4096]) s ∧ NothingElseWaits m7 s ∧ s.glb.recovery = true ∧ s.glb.stopped = true ∧ s.glb.capture = true) := by
  refine ⟨⟨serves_of (by decide +kernel), nothingElse_serving _ _ _ rfl rfl rfl rfl, fun _ => rfl⟩,
    ⟨serves_of (by decide +kernel), nothingElse_serving _ _ _ rfl rfl rfl rfl, by decide +kernel⟩,
    ⟨serves_of (by decide +kernel), nothingElse_serving _ _ _ rfl rfl rfl rfl, fun _ => rfl, rfl, rfl, fun _ _ _ _ _ _ h => List.not_mem_nil h, fun _ => rfl,
      by decide +kernel⟩,
    ⟨serves_of (by decide +kernel), by decide +kernel⟩,
    ⟨serves_of (by decide +kernel), nothingElse_serving _ _ _ rfl rfl rfl rfl, by decide +kernel⟩,
    ⟨serves_of (by decide +kernel), nothingElse_serving _ _ _ rfl rfl rfl rfl, rfl⟩,
    ⟨serves_of (by decide +kernel), nothingElse_serving _ _ _ rfl rfl rfl rfl, rfl, rfl, rfl⟩⟩

/-- Mailbox 7 has its GO, before its arguments are taken: an opcode that no row has, one that a tenant may not send, one in the journal. -/
def going (op : Nat) (s : State) : State :=
  s.setMailbox 7 { s.mailbox 7 with opcode := BitVec.ofNat 16 op, seq := 1, go := true, busy := .go }

def journalled (s : State) : State :=
  s.setMailbox 7 { s.mailbox 7 with journal := some { opcode := 0, seq := 1, status := 0, res := [], bytes := 0 } }

def tenGoing (op : Nat) (s : State) : State :=
  s.setMailbox 257 { s.mailbox 257 with opcode := BitVec.ofNat 16 op, seq := 1, go := true, busy := .go }

theorem wit_ArgumentsAreCopiedAndChecked :
    (up.pwr.phase ≠ .down ∧ fwReady up = true ∧ ((going 0xFFFF up).mailbox 7).busy = .go ∧ issuerOf 0xFFFF = none) ∧
    (((tenGoing 0x0900 up).mailbox 257).busy = .go ∧ mayIssue (tenGoing 0x0900 up) (.ten 1) (copyCmd ((tenGoing 0x0900 up).mailbox 257)) = false) ∧
    (issuerOf 0 ≠ none ∧ mayIssue (going 0 up) m7 (copyCmd ((going 0 up).mailbox 7)) = true ∧ ((going 0 up).mailbox 7).journal = none ∧
      (((going 0 (journalled up)).mailbox 7).journal).isSome = true) ∧
    (let s := serving 0x0902 [] up
     taken s m7 0x0902 = some (cmdOf 0x0902 []) ∧ (cmdOf 0x0902 []).args.length < 1) ∧
    (let s := serving 0x0600 [255, 0, 0, 0] (up.setTenantR 255 { tenantD 255 with isSealed := true })
     taken s m7 0x0600 = some (cmdOf 0x0600 [255, 0, 0, 0]) ∧ sealedNamed s m7 (cmdOf 0x0600 [255, 0, 0, 0]) = true) := by
  refine ⟨?_, ?_, ?_, ?_, ?_⟩ <;> decide +kernel

theorem wit_CommitAloneFlipsAtOnce :
    let s := serving 0x0101 [] (setTxn m7 (some Txn.empty) up)
    Serves m7 0x0101 0 (cmdOf 0x0101 []) s ∧ (s.mailbox 7).txn = some Txn.empty ∧ s.twin.state = .solo ∧ needsNobody s = true ∧
      s.fw.commit = none ∧ s.fw.prepared = none ∧ s.glb.draining = false ∧ s.glb.merging = false ∧ admission s Txn.empty (ceilNow s) = true ∧
      recheck s (stagerOf m7) Txn.empty = true ∧ (Txn.empty.regions.map Prod.fst).Pairwise (· < ·) ∧ changesDip Txn.empty = false := by
  refine ⟨serves_of (by decide +kernel), ?_⟩; decide +kernel

/-- A pair whose Seam-T is up. -/
def paired (s : State) : State :=
  ({ s with twin := { s.twin with state := .paired, absent := false }, pwr := { s.pwr with straps := { Straps.zero with lanes := 8 } } }).setLink 0
    { linkD 0 with st := .up }

/-- Rings of a guarantee above every ceiling. -/
def greedy : Txn := { Txn.empty with rings := [(0, { w0 := 0xFFFF0001#64, w1 := 0x1000#64, w2 := 0x1000#64, w3 := 0 })] }

def inPair (f : Twin → Twin) (t : Option Txn) : State := serving 0x0101 [] (setTxn m7 t ((paired up).upTwin f))

theorem wit_CommitOfAPairPrepares :
    (Serves m7 0x0101 0 (cmdOf 0x0101 []) (inPair id none) ∧ ((inPair id none).mailbox 7).txn = none) ∧
    (∀ st ∈ [Pair.training, .alone, .rewash, .paired, .degraded], let s := inPair (fun w => { w with state := st }) (some Txn.empty)
      Serves m7 0x0101 0 (cmdOf 0x0101 []) s ∧ (s.mailbox 7).txn = some Txn.empty ∧ s.fw.commit = none ∧ s.fw.prepared = none ∧
        s.glb.draining = false ∧ s.glb.merging = false ∧ s.twin.partner = none ∧ admission s Txn.empty (ceilNow s) = true ∧
        recheck s (stagerOf m7) Txn.empty = true) ∧
    (let s := inPair id (some greedy)
     Serves m7 0x0101 0 (cmdOf 0x0101 []) s ∧ admission s greedy (ceilNow s) = false) ∧
    (let s := serving 0x0101 [] (setTxn m7 (some Txn.empty) { up with glb := { up.glb with merging := true } })
     Serves m7 0x0101 0 (cmdOf 0x0101 []) s ∧ s.glb.merging = true) := by
  refine ⟨⟨serves_of (by decide +kernel), by decide +kernel⟩, fun st h => ⟨serves_of (by revert st h; decide +kernel), by revert st h; decide +kernel⟩,
    ⟨serves_of (by decide +kernel), by decide +kernel⟩, ⟨serves_of (by decide +kernel), by decide +kernel⟩⟩

/-! ### The register target port -/

def ask (c : Instr) (s : State) : RtpReq := (portRequest s c).getD { offset := 0, write := false, size8 := false, data := 0, rq := rq0 }

/-- A write and a read of eight bytes as they stand on the port (Table 2-7). -/
def wr (off : Nat) (d : BitVec 64) : Instr :=
  let q : BitVec 128 := BitVec.ofNat 128 off ||| 1#128 <<< 26 ||| 1#128 <<< 27 ||| d.setWidth 128 <<< 32
  .registerWrite q (groupParity q 8)

def rd (off : Nat) : Instr :=
  let q : BitVec 128 := BitVec.ofNat 128 off ||| 1#128 <<< 27
  .rtpRead q (groupParity q 8)

theorem passes_of {c : Instr} {r : Reg} {k : Nat} {s : State}
    (h : s.pwr.phase ≠ .down ∧ accepting s = true ∧ s.gates.rtpHeld = [] ∧ portRequest s c = some (ask c s) ∧ (ask c s).rq.parityOk = true ∧
      rtpAligned (ask c s) = true ∧ regAt (rtpWord (ask c s)) = some r ∧ rtpDecide s (ask c s) = .lets k ∧
      sealedTarget s (regTen (s.region k)) r = false ∧ expertSealed s (ask c s) r = false) : Passes c (ask c s) r k s :=
  ⟨h.1, h.2.1, h.2.2.1, h.2.2.2.1, h.2.2.2.2.1, h.2.2.2.2.2.1, h.2.2.2.2.2.2.1, h.2.2.2.2.2.2.2.1, h.2.2.2.2.2.2.2.2.1, h.2.2.2.2.2.2.2.2.2⟩

theorem lets_of {c : Instr} {r : Reg} {k : Nat} {s : State}
    (h : (s.pwr.phase ≠ .down ∧ accepting s = true ∧ s.gates.rtpHeld = [] ∧ portRequest s c = some (ask c s) ∧ (ask c s).rq.parityOk = true ∧
      rtpAligned (ask c s) = true ∧ regAt (rtpWord (ask c s)) = some r ∧ rtpDecide s (ask c s) = .lets k ∧
      sealedTarget s (regTen (s.region k)) r = false ∧ expertSealed s (ask c s) r = false) ∧ gatedOf s (needsSlices s (ask c s) r) = []) :
    Lets c (ask c s) r k s := ⟨passes_of h.1, h.2⟩

/-- Writes that the fused default region lets through, with their registers; the last number of each range. -/
def writes : List (Instr × Reg) :=
  [(.lnConsWrite 32767 .w8 0x80000000#64 rq0, .lnCons 32767), (.lnRunlvlWrite 32767 .w8 31 rq0, .lnRunlvl 32767),
    (.lnEoiWrite 32767 .w8 262143 rq0, .lnEoi 32767), (.tkRel 1023 rq0, .tkRel 1023), (.tkBreak 1023 rq0, .tkRel 1023),
    (.tkLeaseWrite 1023 .w8 1 rq0, .tkLease 1023), (.slcMaskOpGo 262143 true rq0, .maskOp), (.gtUpdGo rq0, .gtUpd), (.dlvRstgGo rq0, .rstgCtl),
    (.slcSrcGo rq0, .srcCtl), (.slcSrcSelWrite .w8 262143 rq0, .srcSel), (.prfSelWrite .w8 3 rq0, .prfSel), (.errCoreRestart rq0, .coreCtl),
    (.errRingBaseWrite .w8 0x1008#64 rq0, .errBase), (.consIndexWrite .errRing .w8 0 rq0, .errCons),
    (.consIndexWrite (.ledger 255) .w8 0 rq0, .lcons 255), (.arbiterConfigWrite .lvlMap .hi 0 rq0, .lvlMap),
    (.arbiterConfigWrite .arbCfg .lo 1 rq0, .arbCfg), (.smtLaneCfgWrite .w8 0 rq0, .laneCfg), (.statusFlagClear .timeStall 15 rq0, .timeStat),
    (.statusFlagClear .paceShort 15 rq0, .paceStat), (.statusFlagClear .twinTakeover 15 rq0, .twin),
    (.statusFlagClear (.ctrWrap 29 7) 15 rq0, .ctrVal 239), (.counterWrite 0x300B0 .w8 0 rq0, .counter 0x300B0), (.mbxGo m7 0 rq0, .mbxCmd m7),
    (wr 0x28018 1, .srcEntry), (wr 0x30018 1, .rstgW 0), (wr 0x40018 1, .stgW 2), (wr 0x80018 0, .mbxNote (.ctl 0)),
    (wr 0x804F8 0, .mbxArg (.ctl 0) 127), (wr 0x98 0, .weight 3), (wr 0x18 0, .fwBase), (wr 0x40FFD8 0, .tkStat 1023)]

theorem wit_LetsWrite : ∀ p ∈ writes, LetsWrite p.1 (ask p.1 up) p.2 4096 up := by
  intro p hp
  exact ⟨lets_of (by revert p hp; decide +kernel), by revert p hp; decide +kernel⟩

theorem wit_RefusedAccessesAreAnswered :
    accepting up = true ∧ up.gates.rtpHeld = [] ∧ (ask (.gtUpdGo { rq0 with parityOk := false }) up).rq.parityOk = false ∧ rtpAligned (ask (wr 0x2004 0) up) = false ∧
    regAt (rtpWord (ask (wr 0x8 0) up)) = none ∧ regAt (rtpWord (ask (rd 0xFFFF8) up)) = none ∧
    rtpDecide up (ask (.gtUpdGo { rq0 with colour := 1 }) up) = .fault vColour (some 0) ∧
    (let s := up.setTenantR 0 { tenantD 0 with isSealed := true }
     rtpDecide s (ask (wr 0x28018 0) s) = .lets 4096 ∧ expertSealed s (ask (wr 0x28018 0) s) .srcEntry = true) ∧
    (let s := { up with pwr := { up.pwr with on := 1 } }
     gatedOf s (needsSlices s (ask (.lnEoiWrite 0 .w8 7 rq0) s) (.lnEoi 0)) = [sliceOf (7 : BitVec 18)]) := by
  decide +kernel

theorem wit_ReadsAndReadOnlyRegisters : (∀ p ∈ [(rd 0x2000, Reg.errBase), (rd 0x807FF8, .scanWord 4095), (.tkAcqRead 1023 .w8 rq0, .tkAcq 1023),
      (.tkAcqRead 0 .lo rq0, .tkAcq 0)], Lets p.1 (ask p.1 up) p.2 4096 up ∧ (ask p.1 up).write = false) ∧
    (regAt (rtpWord (ask (rd 0x60) up)) = some .timeNow ∧ (ask (rd 0x60) up).offset.toNat < 0x1000) ∧
    LetsWrite (.prfSelWrite .hi 0 rq0) (ask (.prfSelWrite .hi 0 rq0) up) .prfSel 4096 up ∧ rtpAcc (ask (.prfSelWrite .hi 0 rq0) up) = .hi := by
  refine ⟨fun p hp => ⟨lets_of (by revert p hp; decide +kernel), by revert p hp; decide +kernel⟩, by decide +kernel,
    ⟨lets_of (by decide +kernel), by decide +kernel⟩, by decide +kernel⟩

/-- A ring entry of tenant 0 with EN = 1 and the smallest half, and a half that takes records (R124, R132). -/
def ringE : RingEnt := { w0 := 1, w1 := 0x1000#64, w2 := 0x1000#64, w3 := 0 }

def ringUp (r : Nat) (h : Half) (s : State) : State :=
  (s.setRingV r { cur := ringE, x := 0, prior := ringE }).setHalf r { h with quiesced := false, everEnabled := true }

def withDyn (k : Nat) (d : SrcDyn) (s : State) : State := s.setDyn k d

def ev0 : Ev := { epoch := 0, slot := none, frozen := false, dup := false, carry := none, capture := false, takeover := false }

/-- A consumer index one half behind PROD is taken, one further behind is not (R131). -/
theorem wit_ConsumerIndexWrites : ∀ d ∈ [(0, true), (0x7FFFFFFF, false)],
    let s := ringUp 0 { halfD 0 with prod := 64 } up
    LetsWrite (.lnConsWrite 0 .w8 (BitVec.ofNat 64 d.1) rq0) (ask (.lnConsWrite 0 .w8 (BitVec.ofNat 64 d.1) rq0) s) (.lnCons 0) 4096 s ∧
      (decide (((s.half 0).prod - fld (BitVec.ofNat 64 d.1) 0 31).toNat ≤ halfSize s 0) = d.2) := by
  intro d hd
  exact ⟨⟨lets_of (by revert d hd; decide +kernel), by revert d hd; decide +kernel⟩, by revert d hd; decide +kernel⟩

theorem wit_RearmFollowsTheRule : ∀ h ∈ [{ halfD 0 with prod := 1 }, { halfD 0 with prod := 1, arm := true }, { halfD 0 with nlvl := some 15 }],
    LetsWrite (.lnRunlvlWrite 0 .lo 17 rq0) (ask (.lnRunlvlWrite 0 .lo 17 rq0) (ringUp 0 h up)) (.lnRunlvl 0) 4096 (ringUp 0 h up) ∧
      healthy (ringUp 0 h up) 0 = true ∧ (ringUp 0 h up).glb.ranking = true := by
  intro h hh
  exact ⟨⟨lets_of (by revert h hh; decide +kernel), by revert h hh; decide +kernel⟩, by revert h hh; decide +kernel⟩

theorem wit_EndOfInterruptCompletes :
    (∀ d ∈ [{ dynD 5 with st := .active }, { dynD 5 with st := .activePending, ev := some ev0 }, dynD 5],
      let s := withDyn 5 d (ringUp 0 (halfD 0) up)
      Lets (.lnEoiWrite 0 .w8 5 rq0) (ask (.lnEoiWrite 0 .w8 5 rq0) s) (.lnEoi 0) 4096 s ∧ s.dyn 5 = d ∧
        srcTen (srcNow s 5) = ringTen (ringNow s 0)) ∧
    (let s := { up with pwr := { up.pwr with on := 1 } }
     Passes (.lnEoiWrite 0 .w8 5 rq0) (ask (.lnEoiWrite 0 .w8 5 rq0) s) (.lnEoi 0) 4096 s ∧ domOn s (dSlc (sliceOf (5 : BitVec 18))) = false) := by
  refine ⟨fun d hd => ⟨lets_of (by revert d hd; decide +kernel), by revert d hd; decide +kernel⟩,
    passes_of (by decide +kernel), by decide +kernel⟩

/-- A Tack that is FREE, BROKEN, held by requester `rq0` and held by another. -/
theorem wit_Tacks : ∀ x ∈ [(tackD 0, false), ({ tackD 0 with st := .broken }, false), ({ tackD 0 with st := .held }, true),
      ({ tackD 0 with st := .held, port := 1 }, false)],
    let s := up.setTack 0 x.1
    LetsWrite (.tkRel 0 rq0) (ask (.tkRel 0 rq0) s) (.tkRel 0) 4096 s ∧ LetsWrite (.tkBreak 0 rq0) (ask (.tkBreak 0 rq0) s) (.tkRel 0) 4096 s ∧
      Lets (.tkAcqRead 0 .w8 rq0) (ask (.tkAcqRead 0 .w8 rq0) s) (.tkAcq 0) 4096 s ∧
      LetsWrite (.tkLeaseWrite 0 .lo 7 rq0) (ask (.tkLeaseWrite 0 .lo 7 rq0) s) (.tkLease 0) 4096 s ∧ holdsTack (s.tackAt 0) 0 rq0 = x.2 := by
  intro x hx
  exact ⟨⟨lets_of (by revert x hx; decide +kernel), by revert x hx; decide +kernel⟩, ⟨lets_of (by revert x hx; decide +kernel), by revert x hx; decide +kernel⟩,
    lets_of (by revert x hx; decide +kernel), ⟨lets_of (by revert x hx; decide +kernel), by revert x hx; decide +kernel⟩, by revert x hx; decide +kernel⟩

theorem wit_MaskOperationRegister :
    (∀ d ∈ [dynD 262143, { dynD 262143 with st := .quarantined }, { dynD 262143 with st := .issued, ev := some ev0 }],
      let s := withDyn 262143 d up
      LetsWrite (.slcMaskOpGo 262143 true rq0) (ask (.slcMaskOpGo 262143 true rq0) s) .maskOp 4096 s ∧ s.slc.maskRun = none ∧
        sealedTen s (srcTen (srcNow s 262143)) = false ∧ s.dyn 262143 = d) ∧
    (let s := up.setTenantR 0 { tenantD 0 with isSealed := true }
     LetsWrite (.slcMaskOpGo 0 true rq0) (ask (.slcMaskOpGo 0 true rq0) s) .maskOp 4096 s ∧ sealedTen s (srcTen (srcNow s 0)) = true) ∧
    LetsWrite (wr 0x28000 0) (ask (wr 0x28000 0) up) .maskOp 4096 up := by
  refine ⟨fun d hd => ⟨⟨lets_of (by revert d hd; decide +kernel), by revert d hd; decide +kernel⟩, by revert d hd; decide +kernel⟩,
    ⟨⟨lets_of (by decide +kernel), by decide +kernel⟩, by decide +kernel⟩, lets_of (by decide +kernel), by decide +kernel⟩

def stagedSrc (e : SrcEntry) (s : State) : State := s.upSlc fun c => { c with staged := some e, selSrc := 262143 }
def stagedRing (e : RingEnt) (s : State) : State := s.upDlv fun d => { d with rstg := some e, rstgSel := 32767 }

theorem wit_SourceAndRingWindowsInstall :
    (∀ e ∈ [(0, false), (0x100, true)], let s := (stagedSrc (BitVec.ofNat 64 e.1) up).setTenantR 1 { tenantD 1 with isSealed := true }
      LetsWrite (.slcSrcGo rq0) (ask (.slcSrcGo rq0) s) .srcCtl 4096 s ∧ sealedTen s (srcTen (BitVec.ofNat 64 e.1)) = e.2 ∧ (s.dyn 262143).st ≠ .quarantined ∧
        carriesUsed s + installNeeds s 262143 ≤ 16384) ∧
    (∀ e ∈ [(ringZero, true), ({ ringZero with w0 := 44 }, false), (ringE, true)], let s := stagedRing e.1 up
      LetsWrite (.dlvRstgGo rq0) (ask (.dlvRstgGo rq0) s) .rstgCtl 4096 s ∧ rstgOk s 32767 e.1 = e.2 ∧ sealedTen s (ringTen e.1) = false ∧
        healthy s 32767 = false) ∧
    (let s := stagedRing { ringE with w0 := 5 } (ringUp 32767 (halfD 0) up)
     LetsWrite (.dlvRstgGo rq0) (ask (.dlvRstgGo rq0) s) .rstgCtl 4096 s ∧ rstgOk s 32767 { ringE with w0 := 5 } = true ∧
      (healthy s 32767 && ringMoves { ringE with w0 := 5 } (ringNow s 32767)) = true) := by
  refine ⟨fun e he => ⟨⟨lets_of (by revert e he; decide +kernel), by revert e he; decide +kernel⟩, by revert e he; decide +kernel⟩,
    fun e he => ⟨⟨lets_of (by revert e he; decide +kernel), by revert e he; decide +kernel⟩, by revert e he; decide +kernel⟩,
    ⟨lets_of (by decide +kernel), by decide +kernel⟩, by decide +kernel⟩

theorem wit_GateWindowInstalls :
    (let s := up.upGates fun g => { g with go := true }
     s.gates.go = true ∧ accepting s = true ∧ sleepingDips s = []) ∧
    (let s := { (up.upGates fun g => { g with go := true }).setStagedRegion 0 (some regZero) with pwr := { up.pwr with on := 1 } }
     15 ∈ sleepingDips s) := by
  decide +kernel

theorem wit_ProfileChanges : (let s := { up with glb := { up.glb with prfBusy := true } }
    s.glb.prfBusy = true ∧ awake s = true ∧ accepting s = true) ∧ up.glb.prfBusy = false ∧ fld (3#64) 0 2 ≠ up.glb.prfActive := by
  decide +kernel

theorem wit_ErrorAndLedgerRegisters : (let s := { up with fw := { up.fw with phase := .halted } }
    LetsWrite (.errCoreRestart rq0) (ask (.errCoreRestart rq0) s) .coreCtl 4096 s ∧ s.fw.phase = .halted) ∧
    (ringedLog up).log.prod = 0 ∧ errRingRecs (ringedLog up) = 8 * errRingRecs (ringedLog up) / 8 ∧ ledgerSize (up.ledgerAt 255) ≠ 0 := by
  refine ⟨⟨⟨lets_of (by decide +kernel), by decide +kernel⟩, by decide +kernel⟩, by decide +kernel⟩

/-- Registers of Seam-T on a block that has it, of Seam-R on one with a number, and a counter page of a tenant. -/
theorem wit_FlagsCountersAndSettingsTakeWrites :
    (let s := { up with pwr := { up.pwr with straps := { Straps.zero with lanes := 8 } } }
     LetsWrite (.smtLaneCfgWrite .w8 0 rq0) (ask (.smtLaneCfgWrite .w8 0 rq0) s) .laneCfg 4096 s ∧ s.pwr.straps.lanes ≠ 0) ∧
    LetsWrite (wr 0x1FF870 0) (ask (wr 0x1FF870 0) up) (.tenCounter 255 0x1FF870) 4096 up ∧
    LetsWrite (wr 0x70000 0) (ask (wr 0x70000 0) up) (.ctrSel 0) 4096 up ∧ LetsWrite (wr 0x60100 0) (ask (wr 0x60100 0) up) .sessSel 4096 up := by
  refine ⟨⟨⟨lets_of (by decide +kernel), by decide +kernel⟩, by decide +kernel⟩, ⟨lets_of (by decide +kernel), by decide +kernel⟩,
    ⟨lets_of (by decide +kernel), by decide +kernel⟩, lets_of (by decide +kernel), by decide +kernel⟩

/-- GO at rest, while Twifomon restarts, and while a command runs. -/
theorem wit_MailboxRegistersTakeWrites : ∀ s ∈ [up, { up with fw := { up.fw with phase := .restarting } }, serving 0 [] up],
    LetsWrite (.mbxGo m7 0 rq0) (ask (.mbxGo m7 0 rq0) s) (.mbxCmd m7) 4096 s ∧ accOne .w8 (ask (.mbxGo m7 0 rq0) s).data 63 = true := by
  intro s hs
  exact ⟨⟨lets_of (by revert s hs; decide +kernel), by revert s hs; decide +kernel⟩, by revert s hs; decide +kernel⟩

/-! ### Intake and ranking -/

/-- A doorbell of `src` at a DIP with its parity (Table 2-2). -/
def door (src kind : Nat) : BitVec 128 :=
  let m : BitVec 128 := BitVec.ofNat 128 (8 * src) ||| 0xF#128 <<< 24 ||| BitVec.ofNat 128 kind <<< 60
  m ||| (inbandParity m).setWidth 128 <<< 120

def dipOff (s : State) : State := { s with pwr := { s.pwr with on := 1 } }
def fatal (s : State) : State := s.upLog fun l => { l with fatal := true }
def msg0 (src : Nat) (kind : BitVec 4) : Msg :=
  { src := BitVec.ofNat 18 src, kind, n := 1, first := 0, last := 0, time := 0, port := 0, reqid := 0, colour := 0, relayed := false, srcBlock := 0,
    epoch := 0, noPort := false }

def fullQueue (s : State) : State := s.setQueue 0 (List.replicate 32 (msg0 0 kAssert))

theorem wit_HandshakesAreTakenOrHeld : ∀ p ∈ [(up, DipHold.free), (dipOff up, .power), (fatal up, .other), (fullQueue up, .queue)],
    p.1.heldL 0 = [] ∧ dipHold 0 1 (door 0 0 |>.setWidth 512) (arrived 0 1 (door 0 0 |>.setWidth 512) p.1) = p.2 := by
  decide +kernel

def entOf (m : Msg) (n : Nat) : FoldEnt := { foldNew m with count := n }

theorem wit_OneMessageAtTheDip :
    inbandOk (door 0 0 ^^^ 1#128 <<< 120) = false ∧ (inbandOk (door 0 5) = true ∧ dipGate up (door 0 5) = .fault vKindRsvd none) ∧
    (∀ k ∈ [0, 1, 2, 3], inbandOk (door 1023 k) = true ∧ dipGate up (door 1023 k) = .lets 0 ∧ (stampMsg up (door 1023 k)).kind ≠ kFence) ∧
    (inbandOk (door 0 4) = true ∧ dipGate up (door 0 4) = .lets 0 ∧ (stampMsg up (door 0 4)).kind = kFence) ∧
    (let x := stampMsg up (door 0 0)
     let s := up.setFolder 15 [entOf x 0]
     (s.folder 15).find? (fun e => e.m.src = x.src) = some (entOf x 0) ∧ foldMatches (entOf x 0) x = true ∧
      foldMatches (entOf x 0) (stampMsg up (door 0 1)) = false) ∧
    (let s := up.setFolder 15 ((List.range 64).map fun k => entOf (msg0 (k + 1) kAssert) 1)
     (s.folder 15).find? (fun e => e.m.src = (0 : BitVec 18)) = none ∧ 64 ≤ (s.folder 15).length ∧ (up.folder 15).length < 64) ∧
    (let s := fatal (up.setLink 0 { linkD 0 with st := .up })
     s.log.fatal = true ∧ canForward s = true ∧ s.queue 0 = [] ∧ s.folder 0 = []) := by
  decide +kernel

theorem wit_FolderAnswersAndSliceApplies :
    (∀ n ∈ [0, 1], let s := up.setFolder 15 [entOf (msg0 1023 kAssert) n]
      (s.folder 15).find? (fun e => e.m.src = 1023) = some (entOf (msg0 1023 kAssert) n) ∧ inQueue s 15 1023 = false ∧ accepting s = true ∧
        s.log.fatal = false ∧ queueFull s 15 1023 = false) ∧
    (let s := fullQueue up
     s.queue (8 * originKey (.dip 0) + 0) ≠ [] ∧ applying s = true ∧ domOn s (dSlc 0) = true ∧ domOn (dipOff s) (dSlc 0) = false) := by
  decide +kernel

/-- Every state of a source meets every kind of message that its mode takes (Table 6-2), and the refusals before it. -/
theorem wit_SourceTransitionsAtApply :
    (let s := withDyn 5 { dynD 5 with st := .pending, ev := some { ev0 with slot := some (sliceOf 5#18 * 8192) } } up
     tagFolds s (msg0 5 kAssert) = true) ∧
    (∀ st ∈ [SState.idle, .pending, .held, .active, .activePending, .issued, .quarantined], ∀ k ∈ [kAssert, kCancel],
      let s := withDyn 5 { dynD 5 with st, ev := if st = .idle ∨ st = .active then none else some { ev0 with frozen := true } } up
      tagFolds s (msg0 5 k) = false ∧ srcLive s (srcEntryAt s 5 0) 0 = true ∧ portRefuses (msg0 5 k) (srcPort (srcEntryAt s 5 0)) = false ∧
        modeAccepts (srcMode (srcEntryAt s 5 0)) k = true) ∧
    (let s := up.setMain 5 (5#64 ||| 0xFF#64 <<< 47)
     ∀ k ∈ [kLevelHi, kLevelLo], tagFolds s (msg0 5 k) = false ∧ srcLive s (srcEntryAt s 5 0) 0 = true ∧
      modeAccepts (srcMode (srcEntryAt s 5 0)) k = true) ∧
    (srcLive up (srcEntryAt up 262143 0) 0 = false ∧ modeAccepts (srcMode (srcEntryAt up 5 0)) kLevelHi = false ∧
      portRefuses (msg0 5 kAssert) (srcPort (srcEntryAt (up.setMain 5 (1#64 ||| 1#64 <<< 47)) 5 0)) = true) ∧
    lowestGap (slotsOf up 5) 0 < 8192 ∧ lowestGap (slotsOf up 0) 0 < 8192 := by
  decide +kernel

theorem wit_WiredInputsArePresented :
    (let s := up.setEdge 1023 255
     edgeSelected s 1023 = true ∧ s.edge 1023 ≠ 0 ∧ accepting s = true ∧ domOn s (dSlc (sliceOf (1023 : BitVec 18))) = true ∧
      domOn (dipOff s) (dSlc (sliceOf (1023 : BitVec 18))) = false) ∧
    (let s := (up.setMain 1023 (5#64 ||| 0xFF#64 <<< 47)).setSampler 1023 { level := true, presented := false, out := some true }
     edgeSelected s 1023 = false ∧ srcMode (srcNow s 1023) = 1 ∧ (s.sampler 1023).out = some true) := by
  decide +kernel

/-- Source 5 of level 5 goes to ring 0, whose half takes records, and is pending. -/
def srcE : SrcEntry := 0x51#64 ||| 0xFF#64 <<< 47

def pend (s : State) : State := withDyn 5 { dynD 5 with st := .pending, ev := some ev0 } ((ringUp 0 (halfD 0) s).setMain 5 srcE)

theorem wit_SelectIssuesTheWinners : ranking (pend up) = true ∧ domOn (pend up) (dSlc (sliceOf 5#18)) = true ∧
    bestOf (pend up) (sliceOf 5#18) = some (5, ev0) ∧ bestOf up 0 = none := by
  decide +kernel

def req0 (dest : Dest) : Req := { kind := .event 5, lvl := 5, dest, epoch := 0, age := 0, sel := 0, res := false }
def issued (s : State) : State := withDyn 5 { dynD 5 with st := .issued, ev := some ev0 } ((ringUp 0 (halfD 0) s).setMain 5 srcE)
def pooled (n : Nat) (s : State) : State := s.upDlv fun d => { d with poolBucket := n }
def guarded (n : Nat) (s : State) : State :=
  (s.setRingV 0 { cur := { ringE with w0 := 0x10001#64 }, x := 0, prior := ringE }).setBucket 0 n
def selected (d : Dest) (s : State) : State := s.setSelQ 5 [req0 d]

/-- Entry with a guarantee token, with a pool token at exactly one token, with neither, for a closed half, for another block, and for a set. -/
theorem wit_LevelQueueEntryAdmits :
    (∀ p ∈ [(guarded token (issued up), true), (pooled token (issued up), true), (pooled (token - 1) (issued up), false)],
      let s := selected (.half 0) p.1
      ranking s = true ∧ nextEntry 5 (fenceRequests s.begin_) = some (req0 (.half 0)) ∧ halfOpen s 0 = true ∧ (entryToken 5 0 s).isSome = p.2) ∧
    (let s := selected (.half 0) { pooled 0 (issued up) with glb := { up.glb with stalled := true } }
     ranking s = true ∧ (entryToken 5 0 s).isSome = true) ∧
    halfOpen (selected (.half 1) (issued up)) 1 = false ∧ nextEntry 5 (fenceRequests (selected (.remote 1 1) (issued up)).begin_) = some (req0 (.remote 1 1)) ∧
    (let v := ringUp 1 { halfD 1 with full := true } (issued up)
     (membersWhere [1] fun r => healthy v r && (v.half r).full) ≠ [] ∧ residueEntries v < 4096 ∧ (membersWhere [0] fun r => halfOpen v r) = [0]) := by
  decide +kernel

theorem wit_PacerStageAndRelayStage :
    (let s := pooled token ((issued up).setPaceQ 5 [req0 (.half 0)])
     ranking s = true ∧ (returnPaced 5 s.begin_).paceQ 5 = [req0 (.half 0)] ∧ reqHalf (req0 (.half 0)) = some 0 ∧
      (anyToken 0 (returnPaced 5 s.begin_)).isSome = true) ∧
    (let s := (issued up).setLq 5 [req0 (.remote 1 1)]
     ranking s = true ∧ s.lq 5 = [req0 (.remote 1 1)] ∧ s.relay.stage.length < 256) := by
  decide +kernel

def granted (gather : Bool) (s : State) : State :=
  s.setGrants 0 [.recs 0 [{ req0 (.half 0) with res := true }] 0 gather 0 ringE]

theorem wit_ArbiterGrants :
    (∀ n ∈ [14, 15], let s := ((issued up).setLq 5 [{ req0 (.half 0) with res := true }]).setGrantCount 0 n
      mayGrant s 0 = true ∧ (winner s (decide (s.dlv.nth.toNat ≤ s.grantCount 0 + 1)) (cands s 0)).isSome = true) ∧
    (granted true (issued up)).grants 0 ≠ [] ∧ ∀ g ∈ (granted false (issued up)).grants 0, gathering g = false := by
  decide +kernel

theorem wit_WithdrawsSettle : ∀ p ∈ [Purpose.quarantine, .cancel true, .mask],
    let s := withDyn 5 { dynD 5 with st := .issued, ev := some ev0, withdraw := some p } up
    applying s = true ∧ (s.dyn 5).st = .issued ∧ (s.dyn 5).withdraw = some p ∧ s.mc 5 = none ∧
      (s.setMc 5 (some { rings := [], residue := [0], launched := some 0, sel := 0 })).mc 5 ≠ none := by
  decide +kernel

def gated (s : State) : State := s.setRegion 8192 { lo := 0, hi := 0xFFFFF8#64, attr := 0x100#64 }

def own0 : Own := { cls := 2, target := .ledger 0, addr := 0x1000, data := 0, ten := 0, age := 0, copy := none }

theorem wit_LaunchesAndDeadSlots :
    (∀ p ∈ [(up, false), (gated up, true)], let s := p.1.setGrants 0 [.own own0]
      applying s = true ∧ domOn s dDlv = true ∧ (freeTag s 0).isSome = true ∧ cryWait s (.own own0) = false ∧
        (decide (gateDecide s 2 0x1000 64 (coloursOf s 0) = .lets 8192) = p.2)) ∧
    (∀ p ∈ [(granted false (issued up), false), (granted false (gated (issued up)), true)],
      let a := ringBase (strapB p.1) (ringNow p.1 0)
      healthy p.1 0 = true ∧ (p.1.half 0).restarts = 0 ∧ (freeTag p.1 0).isSome = true ∧
        (decide (gateDecide p.1 2 a.toNat 16 (coloursOf p.1 0) = .lets 8192) = p.2)) ∧
    healthy (granted false up) 0 = false := by
  decide +kernel

def outst0 (late : Bool) (s : State) : State :=
  (s.setOutst 3 4095 (some { cls := 0, target := .ring 0, addr := 0, time := 0, late, stale := false }))

/-- A completion of tag 4,095 with the status, with its parity (Table 2-5). -/
def cpl (st : BitVec 3) : BitVec 16 :=
  let c : BitVec 16 := 0xFFF#16 ||| st.setWidth 16 <<< 12
  if evenParity (fld c 0 15) then c ||| 0x8000#16 else c

theorem wit_CompletionsFreeTheirTags :
    (∀ st ∈ [(0 : BitVec 3), 1], cplParityOk (cpl st) = true ∧ cplTag (cpl st) = 4095 ∧ cplStatus (cpl st) = st) ∧ cplParityOk (cpl 0 ^^^ 0x8000#16) = false ∧
    ((outst0 false up).outst 3 4095).isSome = true ∧ (outst0 false up).noteQ 3 = [] ∧ up.outst 3 4095 = none ∧
    (let s := outst0 false { up with glb := { up.glb with now := 1000000 } }
     applying s = true ∧ 0 + 1000000 ≤ s.glb.now.toNat) ∧
    (outst0 false { up with glb := { up.glb with now := 999999 } }).glb.now.toNat < 1000000 := by
  decide +kernel

/-! ### Time, power, errors -/

def at_ (now : Nat) (s : State) : State := { s with glb := { s.glb with now := BitVec.ofNat 64 now } }
def stalled (s : State) : State := { s with glb := { s.glb with stalled := true } }

/-- A value equal to the time now, one behind, one of bad parity; the first value after cold start; in and out of a stall. -/
theorem wit_TimePortAndStall :
    (∀ v ∈ [(1000, true), (999, false)], let s := at_ 1000 up
      accepting s = true ∧ (decide (s.glb.now.toNat ≤ (BitVec.ofNat 64 v.1).toNat) = v.2)) ∧
    groupParity 1000#64 4 ≠ groupParity 1000#64 4 ^^^ 1 ∧ (stalled up).glb.stalled = true ∧ up.glb.stalled = false ∧ up.glb.ticks ≠ 0 ∧
    State.reset.glb.ticks = 0 ∧ bucketHalves (guarded 0 (issued up)) = [0] ∧ (bucketHalves (guarded 0 (issued up))).Nodup ∧ applying up = true := by
  decide +kernel

theorem wit_SoakPeriodMinuteAndSnapshot :
    (∀ n ∈ [(1000, true), (999, false)], let s := at_ n.1 (up.setGrun 4095 { count := 1, soaking := true, endAt := 1000, since := 0 })
      decide ((s.grun 4095).soaking = true ∧ (s.grun 4095).endAt.toNat ≤ s.glb.now.toNat ∧ (s.grun 4095).since < s.glb.ticks) = n.2) ∧
    (let s := at_ 16000 up
     s.glb.stalled = false ∧ accepting s = true ∧ s.dlv.periodStart.toNat + 16000 ≤ s.glb.now.toNat ∧ 1000 < (1001 : Nat) + s.starved 0) ∧
    (∀ l ∈ [(ledgerD 0, false), ({ ledgerD 0 with base := 0x1000, en := true }, false), ({ ledgerD 0 with base := 0x1000, en := true, faulted := true }, true)],
      let s := (up.setLedger 0 l.1).upTly fun y => { y with minuteDue := some 0 }
      s.tly.minuteDue = some 0 ∧ s.glb.stalled = false ∧ ledgerBlocked ((writeCkpts (drainFinals s.begin_)).ledgerAt 0) = l.2 ∧
        ((writeCkpts (drainFinals s.begin_)).ledgerAt 0).en = l.1.en) ∧
    (let s := at_ 10000 (up.upCtr fun c => { c with snapStopped := false, snapInt := 1, snapNext := 10000 })
     s.ctr.snapStopped = false ∧ s.ctr.snapInt ≠ 0 ∧ s.log.fatal = false ∧ accepting s = true ∧ s.ctr.snapNext.toNat ≤ s.glb.now.toNat ∧
      snapBusy s = false ∧ snapBusy (s.upDlv fun d => { d with own := [{ own0 with target := .snapshot }] }) = true) := by
  decide +kernel

def asked (d : Nat) (s : State) : State := { s with pwr := { s.pwr with on := s.pwr.on &&& ~~~(1#30 <<< d), req := 1#30 <<< d } }
def frugalUp : State := at_ 5000 { up with glb := { up.glb with prfActive := pFrugal } }

theorem wit_PowerOfDomains :
    (let s := asked 29 up
     powered s = true ∧ bitAt s.pwr.req 29 = true ∧ domOn s 29 = false ∧ bitAt s.pwr.late 29 = false) ∧
    (let s := { up with pwr := { up.pwr with ack := 1#30 <<< 29 } }
     bitAt s.pwr.ack 29 = true ∧ bitAt s.pwr.req 29 = false) ∧
    (let s := frugalUp
     (frugal s && domOn s (dSlc 7) && sliceQuiet s 7 && sliceUnused s 7 && !rtpWants s 7 && idleSince s (Tbl.get zeroD s.intake.lastApply 7)) = true ∧
      (frugal s && decide (4 ≤ 15) && domOn s (dDip 15) && dipQuiet s 15 && !updateAhead s && idleSince s (Tbl.get zeroD s.intake.lastHandshake 15)) = true) ∧
    (let s := at_ 100000 up
     (domOn s dCry && !keyLoaded s && !cryAsked s && !s.glb.stalled && decide (s.fw.cryIdle.toNat + 100000 ≤ s.glb.now.toNat)) = true) ∧
    (let s := { up with pwr := { up.pwr with phase := .down } }
     s.pwr.phase = .down ∧ Instr.scanEntry ≠ Instr.coldStart) := by
  decide +kernel

def goodImage : FwImage := { readOk := true, sigOk := true, lenKiB := 192, svn := 0, version := 1, digest := 0, manifest := 0 }
def phased (p : Phase) (s : State) : State := { s with pwr := { s.pwr with phase := p } }
def fwAt (p : FwPhase) (s : State) : State := s.upFw fun f => { f with phase := p }

theorem wit_ColdStartAndBoot : State.reset.pwr.phase = .supplyWait ∧ State.reset.pwr.supplyOk = false ∧
    (let s := { phased .held up with pwr := { up.pwr with phase := .held, rstWarmN := false } }
     s.pwr.phase = .held ∧ s.pwr.rstWarmN = false) ∧
    (∀ s ∈ [phased .init up, phased .init State.reset], s.pwr.phase = .init) ∧ domOn (phased .init up) dSmt = true ∧
    domOn (phased .init State.reset) dSmt = false ∧ booting (fwAt .boot up) = true ∧ imageOk goodImage = true := by
  decide +kernel

theorem wit_WarmResetAndTacks : powered up = true ∧ accepting up = true ∧
    (let s := at_ 7000 (up.setTack 1023 { tackD 0 with st := .held, lease := 7, endAt := some 7000 })
     (s.tackAt 1023).endAt = some 7000 ∧ (s.tackAt 1023).st = .held ∧ s.glb.stalled = false ∧ (7000 : BitVec 64).toNat ≤ s.glb.now.toNat) ∧
    bitAt up.pwr.prstAck 63 = false ∧ (phased .drain up).pwr.phase = .drain ∧ (∀ c, up.grants c = [] ∧ up.noteQ c = []) ∧ ((phased .held up).pwr.phase = .held ∧ (phased .held up).pwr.supplyOk = true) ∧
    (let s := { up with pwr := { up.pwr with phase := .held, supplyOk := false, brown := true, rstWarmN := true } }
     s.pwr.phase = .held ∧ s.pwr.supplyOk = false ∧ s.pwr.rstWarmN = true) := by
  refine ⟨by decide +kernel, by decide +kernel, by decide +kernel, by decide +kernel, by decide +kernel, fun _ => ⟨rfl, rfl⟩, by decide +kernel,
    by decide +kernel⟩

def stopping (ranking : Bool) (s : State) : State := { s with glb := { s.glb with capture := true, ranking } }
def shadowed (s : State) : State := s.setShadow 5 (some { entry := srcE, epoch := 1 })

theorem wit_ScansDrainsAndMerges :
    (scanCause (stopping true up) = true ∧ (stopping true up).glb.ranking = true ∧ (stopping true up).log.fatal = false ∧ accepting (stopping true up) = true) ∧
    (scanCause (stopping false up) = true ∧ (stopping false up).glb.ranking = false ∧ scanDrained (stopping false up) = true) ∧
    (let s := { up with glb := { up.glb with ranking := false } }
     scanCause s = false ∧ s.glb.ranking = false ∧ scanDrained s = true ∧ accepting s = true) ∧
    (let s := { up with glb := { up.glb with draining := true } }
     s.glb.draining = true ∧ oldMessages s = false) ∧
    (let s := shadowed (pend up)
     s.glb.draining = false ∧ accepting s = true ∧ (s.shadow 5).isSome = true ∧ domOn s (dSlc (sliceOf 5#18)) = true ∧
      domOn (dipOff s) (dSlc (sliceOf 5#18)) = false ∧ carriesUsed s + carriesNeeded s 5 1 ≤ 16384 ∧ (s.dyn 5).ev = some ev0) := by
  decide +kernel

theorem wit_ErrorsHaveTheirFirstOutcome : aonUp up = true ∧ up.log.bypass = false ∧ coreRuns up = true ∧ scrubbed up ⟨0x1, 5⟩ false = true ∧
    scrubbed up ⟨0, 0⟩ true = true ∧ scrubbed (dipOff up) ⟨0x1, 5⟩ false = false ∧
    ∀ p ∈ [(ErrKind.srcUe, 1), (.ringUe, 2), (.writeErr, 9), (.regionUe, 3), (.slotUe, 4), (.entryUe, 5), (.keyUe, 6), (.tallyUe, 8), (.journalUe, 12),
      (.queueUe, 0), (.fwHalt, 13), (.controlUe, 0), (.logUe, 0)], p.2 ∈ kindUnits p.1 := by
  decide +kernel

theorem wit_LogCopiesAndCoreFaults :
    (let s := ringedLog (logged 63 (up.upLog fun l => { l with copyQ := [.entry 63 1] }))
     aonUp s = true ∧ errRingOn s = true ∧ s.log.faulted = false ∧ errRingFull s = false ∧ s.log.fatal = false ∧ s.log.copyQ = [.entry 63 1] ∧
      (copyWords s (.entry 63 1)).isSome = true) ∧
    (∀ s ∈ [at_ 1000000 (logged 63 up), at_ 1000000 (ringedLog (logged 63 up))], (s.logEnt 63).map LogEnt.cls = some clsCE ∧
      (s.logEnt 63).map LogEnt.acked = some false ∧ s.glb.stalled = false ∧ 0 + 1000000 ≤ s.glb.now.toNat) ∧
    (let s := up.setLost 2 1
     s.log.bypass = false ∧ anyLost s = true ∧ freeEntry s = some 0) ∧
    (∀ p ∈ [([], true), ([0#64], true), ([0#64, 0#64], false)], let s := up.upFw fun f => { f with restarts := p.1 }
      powered s = true ∧ domOn s dMgt = true ∧ s.fw.phase = .ready ∧ decide ((recentRestarts s).length < 2) = p.2) ∧
    ((fwAt .restarting up).fw.phase = .restarting ∧ powered (fwAt .restarting up) = true ∧ domOn (fwAt .restarting up) dMgt = true) ∧
    (((serving 0 [] up).mailbox 7).busy ≠ .idle ∧ ((serving 0 [] up).mailbox 7).slow = false ∧ fwReady (serving 0 [] up) = true) := by
  decide +kernel

/-! ### Trust -/

/-- Tenant 1 asks inside its session to be sealed. -/
def sealing : State :=
  (up.setMailbox 257
    { mbxD 257 with opcode := 0x0800, seq := 1, go := true, busy := .taken, secured := some (cmdOf 0x0310 []), cmd := some (cmdOf 0x0800 []),
                    session := some 0 }).setTenantR 1 { tenantD 1 with coloured := true, colour := 1 }

theorem wit_SealAndDestroyStart :
    (let s := sealing
     Serves (.ten 1) 0x0310 0 (cmdOf 0x0310 []) s ∧ inSession s (.ten 1) = true ∧ sealedTen s 1 = false ∧ tenBusy s 1 = false ∧
      (s.tenantR 1).coloured = true ∧ s.twin.state ≠ .rewash ∧ activating s = false ∧ keyHeld s 1 = false ∧ commitHolds s 1 = false) ∧
    (let s := serving 0x0311 [255] up
     Serves m7 0x0311 1 (cmdOf 0x0311 [255]) s ∧ tenBusy s 255 = false ∧ activating s = false ∧ keyHeld s 255 = false ∧ commitHolds s 255 = false ∧
      tenDips s 255 = false) := by
  refine ⟨⟨serves_of (by decide +kernel), by decide +kernel⟩, serves_of (by decide +kernel), by decide +kernel⟩

/-- One message of each code with version 1.2, as RequestResponseCode stands in its second byte (R258). -/
theorem wit_SpdmMessagesAreAnswered : (∀ p ∈ [(0x8112, SpdmReq.getDigests), (0x8212, .getCertificate), (0xE012, .getMeasurements), (0xFF12, .other),
      (0xE412, .keyExchange), (0x8412, .getVersion)],
    let s := serving 0x0800 [p.1, 0] up
    Serves m7 0x0800 0 (cmdOf 0x0800 [p.1, 0]) s ∧ (s.mailbox 7).secured = none ∧ (cmdOf 0x0800 [p.1, 0]).argLen ≠ 0 ∧ domOn s dCry = true ∧
      spdmRequest (s.mailbox 7) (cmdOf 0x0800 [p.1, 0]) .other = some p.2 ∧ msgByte (cmdOf 0x0800 [p.1, 0]) 0 = 0x12 ∧ sealedMbx s m7 = false) ∧
    (measWanted up 0).isSome = true ∧ (measWanted up 0xFF).isSome = true ∧
    (let s := (up.setMailbox 257 { mbxD 257 with opcode := 0x0800, seq := 1, go := true, busy := .taken, cmd := some (cmdOf 0x0800 [0xE412, 0]) }).setTenantR 1
        { tenantD 1 with isSealed := true }
     Serves (.ten 1) 0x0800 0 (cmdOf 0x0800 [0xE412, 0]) s ∧ sealedMbx s (.ten 1) = true) ∧
    (let s := serving 0x0800 [0xE512, 0] (up.setMailbox 7 { mbxD 7 with handshake := true })
     Serves m7 0x0800 0 (cmdOf 0x0800 [0xE512, 0]) s ∧ spdmRequest (s.mailbox 7) (cmdOf 0x0800 [0xE512, 0]) .finish = some .finish) ∧
    (let s := serving 0x0800 [9, 0] (up.setMailbox 7 { mbxD 7 with session := some 0, sessId := 9 })
     Serves m7 0x0800 0 (cmdOf 0x0800 [9, 0]) s ∧ spdmRequest (s.mailbox 7) (cmdOf 0x0800 [9, 0]) (.secured 0 []) = some (.secured 0 []) ∧
      (issuerOf 0).isSome = true ∧ mayIssue (s.setMailbox 7 { s.mailbox 7 with secured := some (innerCmd 0 []) }) m7 (innerCmd 0 []) = true) := by
  refine ⟨fun p hp => ⟨serves_of (by revert p hp; decide +kernel), by revert p hp; decide +kernel⟩, by decide +kernel, by decide +kernel,
    ⟨serves_of (by decide +kernel), by decide +kernel⟩, ⟨serves_of (by decide +kernel), by decide +kernel⟩,
    ⟨serves_of (by decide +kernel), by decide +kernel⟩⟩

def staged (s : State) : State := s.upFw fun f => { f with staged := some goodImage, stagedOk := true, activateMbx := some m7 }

theorem wit_FirmwareImagesAreStagedAndExchanged :
    (let s := serving 0x0810 [0, 0, 192] up
     Serves m7 0x0810 3 (cmdOf 0x0810 [0, 0, 192]) s ∧ stageBusy s = false ∧ imageRefused (cmdOf 0x0810 [0, 0, 192]) = false ∧ imageBad s goodImage = false) ∧
    (let s := staged (serving 0x0811 [] up)
     Serves m7 0x0811 0 (cmdOf 0x0811 []) s ∧ s.twin.state ≠ .rewash ∧ anyTenBusy s = false ∧ s.fw.stagedOk = true ∧ commitOpen s = false) ∧
    (let s := (fwAt .exchanging (staged (serving 0x0811 [] up))).upFw fun f => { f with fallback := some goodImage }
     s.fw.activateMbx = some m7 ∧ s.fw.staged = some goodImage ∧ s.fw.phase = .exchanging ∧ powered s = true ∧ (s.mailbox 7).cmd.isSome = true ∧
      s.fw.fallback = some goodImage) := by
  refine ⟨⟨serves_of (by decide +kernel), by decide +kernel⟩, ⟨serves_of (by decide +kernel), by decide +kernel⟩, by decide +kernel⟩

def friend : Heartbeat := { state := 1, prepared := false, lease := false, fatal := false, fwHalted := false, epoch := 0 }

theorem wit_TwinAndRelayCommandsTakeEffect :
    (let s := serving 0x0501 [64, 0] (paired up)
     Serves m7 0x0501 2 (cmdOf 0x0501 [64, 0]) s ∧ fld (arg64 (cmdOf 0x0501 [64, 0]) 0) 0 6 = 0 ∧ s.twin.state = .paired ∧
      (findRdTag s 256 (Config.readTag s.freeCtr)).isSome = true) ∧
    (let s := serving 0x0502 [] ((paired up).upTwin fun w => { w with partner := some friend })
     Serves m7 0x0502 0 (cmdOf 0x0502 []) s ∧ s.twin.state = .paired ∧ s.fw.commit = none ∧ s.fw.prepared = none ∧ twinUp s = true ∧
      s.twin.partner = some friend ∧ friend.fwHalted = false) ∧
    (Serves m7 0x0700 2 (cmdOf 0x0700 [2046, 0]) (serving 0x0700 [2046, 0] up) ∧ (2046 : BitVec 11) ≠ ownBlk up ∧ ownBlk up ≠ 0x7FF) ∧
    Serves m7 0x0701 1 (cmdOf 0x0701 [2046]) (serving 0x0701 [2046] up) := by
  refine ⟨⟨serves_of (by decide +kernel), by decide +kernel⟩, ⟨serves_of (by decide +kernel), by decide +kernel⟩,
    ⟨serves_of (by decide +kernel), by decide +kernel⟩, serves_of (by decide +kernel)⟩

/-! ### Links -/

def flit (typ : BitVec 2) (p : BitVec 960) (pre : BitVec 16) : BitVec 1024 := mkFlit (flitHeader typ false false 0 0 0) p pre

theorem inOrder_flit (p : BitVec 960) : aheadOf (linkD 0) .twin (flit 1 p (seqPre 0)) = some 0 := by
  have h : flitMatches (flit 1 p (seqPre 0)) (seqPre 0) = true := flitMatches_mkFlit _ _ _
  simp [aheadOf, linkD, windowStart, windowOf, List.range_succ]
  exact h

/-- Some CRC field is none of two values. -/
theorem otherCrc (a b : DW) : ∃ c : DW, c ≠ a ∧ c ≠ b := by
  by_cases h0 : (0 : DW) ≠ a ∧ (0 : DW) ≠ b
  · exact ⟨0, h0⟩
  · by_cases h1 : (1 : DW) ≠ a ∧ (1 : DW) ≠ b
    · exact ⟨1, h1⟩
    · refine ⟨2, ?_, ?_⟩ <;> intro h <;> subst h <;> simp at h0 h1 <;> exact absurd (h0.trans h1.symm) (by decide)

/-- A flit in order, one for a hole, one unsequenced of each kind, a replay request, a broken one. -/
theorem wit_FlitsAreReceived : linkUp (paired up) .twin = true ∧
    (let s := (paired up).upTwin fun t => { t with rxLanes := 7 }
     linkUp s .twin = true ∧
      arriving s (.lanes ⟨0, laneWordOf 1 0 1⟩ ⟨1, laneWordOf 1 0 0⟩ ⟨2, laneWordOf 1 0 0⟩ ⟨0, laneWordOf 1 1 0⟩) = some (.twin, 1)) ∧
    (∀ s f h, ∃ b : BitVec 11, arriving s (.stream f h) = some (.relay b (bitAt h 43), f)) ∧
    (∀ p : BitVec 960, ∀ t ∈ [(0 : BitVec 2), 1, 2], flitMatches (flit t p unseqPre) unseqPre = true ∧ flType (flit t p unseqPre) = t ∧
      flPayload (flit t p unseqPre) = p) ∧
    aheadOf (linkD 0) .twin (flit 1 0 (seqPre 0)) = some 0 ∧ holeOf { linkD 0 with holes := [5] } (flit 1 0 (seqPre 5)) = some 5 ∧
    holeOf (linkD 0) (flit 1 0 (seqPre 0)) = none ∧ (∃ f, flitMatches f unseqPre = false ∧ aheadOf (linkD 0) .twin f = none) := by
  refine ⟨by decide +kernel, by decide +kernel, fun s f h => ⟨_, rfl⟩, fun p t ht => ⟨flitMatches_mkFlit _ _ _, ?_, flPayload_mkFlit _ _ _⟩,
    inOrder_flit 0, ?_, rfl, ?_⟩
  · rw [flType, flit, flHeader_mkFlit _ _ _ 0 2 (by decide)]
    revert t; decide +kernel
  · have h : flitMatches (flit 1 0 (seqPre 5)) (seqPre 5) = true := flitMatches_mkFlit _ _ _
    simp [holeOf]
    exact h
  · obtain ⟨c, h1, h2⟩ := otherCrc (flitCrc unseqPre 0) (flitCrc (seqPre 0) 0)
    have e (q : BitVec 16) : flitMatches (c ++ (0 : BitVec 992)) q = decide (c = flitCrc q 0) := by
      rw [flitMatches, flCrc, fld_append_high, fld_append_low]
    refine ⟨c ++ (0 : BitVec 992), by rw [e]; exact decide_eq_false h1, ?_⟩
    have f : flitMatches (c ++ (0 : BitVec 992)) (seqPre 0) = false := by rw [e]; exact decide_eq_false h2
    simp [aheadOf, linkD, List.range_succ]
    exact fun _ => f

def sending (f : Link → Link) : State := (paired up).setLink 0 (f { linkD 0 with st := .up, crReq := 1, crRsp := 1 })

theorem wit_FlitsAreSent :
    (∀ f ∈ [fun x => { x with ctl := [0] }, fun x => { x with replay := [{ seq := 0, rsp := false, payload := 0, times := 0 }], replayQ := [0] },
        fun x => { x with replay := [{ seq := 0, rsp := false, payload := 0, times := 0 }], resendQ := [0] },
        fun x => { x with txRsp := [.fw 0x04 [0]] }, fun x => { x with txReq := [.fw 0x03 [0]] }, fun x => { x with sinceAck := 1 }],
      linkUp (sending f) .twin = true ∧ replayRoom (sending f) .twin = true) ∧
    (let x := lk (sending fun x => { x with txReq := [.fw 0x03 [0]] }) .twin
     x.ctl = [] ∧ nextPayload x.fragRsp x.txRsp = none ∧ creditsOf x false = true ∧ (nextPayload x.fragReq x.txReq).isSome = true) ∧
    (let s := (sending fun x => { x with st := .training }).upTwin fun w => { w with lanes := 1 }
     linkOn s .twin = true ∧ isTraining (lk s .twin).st = true ∧ s.twin.lanes ≠ 0) := by
  decide +kernel

def session (f : Link → Link) : State :=
  ({ up with relay := { up.relay with route := [(5, some (0, 0))] } }).setLink 6 (f (linkD 0))

theorem wit_LinksChangeState :
    (∀ n ∈ [7, 6], let s := sending fun x => { x with replay := [{ seq := 9, rsp := false, payload := 0, times := n }] }
      linkUp s .twin = true ∧ ((lk s .twin).replay.find? (fun g => g.seq = 9)).isSome = true) ∧
    (let s := sending fun x => { x with due := true }
     linkOn s .twin = true ∧ (lk s .twin).st = .up ∧ (lk s .twin).due = true) ∧
    (∀ f ∈ [fun x => { x with st := .retrain, fails := 1 }, fun x => { x with st := .retrain, fails := 2 }, fun x => { x with st := .grace }],
      linkOn (sending f) .twin = true) ∧
    (let s := session fun x => { x with txReq := [.fw 0 []] }
     linkOn s (.relay 5 false) = true ∧ (lk s (.relay 5 false)).st = .down ∧ (routeOf s 5).isSome = true ∧ queuedFor s 5 false = true ∧ mayOpen s = true) ∧
    (let s := session fun x => { x with st := .up }
     linkUp s (.relay 5 false) = true ∧ sessionIdle s 5 false = true) ∧
    (∀ st ∈ [LinkState.training, .up], let s := { session (fun x => { x with st }) with relay := { (session id).relay with failed := [(5, false)] } }
     linkOn s (.relay 5 false) = true ∧ pathFailed s 5 false = true ∧ (routeOf s 5).isSome = true ∧ (lk s (.relay 5 false)).st = st) ∧
    (let s := (sending fun x => { x with st := .training }).upTwin fun w => { w with state := .training, absent := true, lnEn := 128 }
     s.twin.state = .training ∧ fwReady s = true ∧ (lk s .twin).mismatch = false ∧ bitAt s.twin.lnEn 7 = true ∧ bitAt s.twin.lnRdy 7 = false) ∧
    (let s := (sending id).upTwin fun w => { w with lnRdy := 255, lanes := 129, ownDrop := 64 }
     bitAt s.twin.lnRdy 7 = true ∧ bitAt (wantLanes s) 7 = true ∧ wantLanes s &&& ~~~(laneBit 7) ≠ 0 ∧ bitAt (wantLanes s) 5 = false ∧
      mayAdd s 6 = true ∧ bitAt s.twin.failedTrain 6 = false ∧ bitAt (s.upTwin fun w => { w with failedTrain := 64 }).twin.failedTrain 6 = true) ∧
    (let s := (sending fun x => { x with st := .retrain }).upTwin fun w => { w with lnRdy := 128, lanes := 129 }
     (lk s .twin).st = .retrain ∧ bitAt s.twin.lanes 7 = true ∧ bitAt s.twin.deskewed 7 = false ∧ s.twin.lanes &&& ~~~(laneBit 7) ≠ 0) ∧
    (let s := (sending fun x => { x with ctl := [0] }).upTwin fun w => { w with lanes := 3, txNext := some 1 }
     linkUp s .twin = true ∧ s.twin.txNext = some 1 ∧ s.twin.txPos = 0 ∧ (lk s .twin).ctl ≠ []) := by
  decide +kernel

/-! ### Pairing -/

/-- A message at the head of a VC of Seam-T. -/
def heard (rsp : Bool) (m : SMsg) (s : State) : State :=
  s.setLink 0 (if rsp then { lk s .twin with rxRsp := [{ m, frees := 1 }] } else { lk s .twin with rxReq := [{ m, frees := 1 }] })

theorem wit_MirrorMessagesTakeEffect :
    (∀ m ∈ [SMsg.mirror 262143 3, .dirty 4095, .snapshot 4095 0, .forward (forwardBits (msg0 5 kAssert))],
      let s := heard false m (paired up)
      twinOn s = true ∧ headRx s .twin false false = some m ∧ s.log.fatal = false) ∧
    (∀ m ∈ [SMsg.mirror 0 3, .dirty 0, .snapshot 0 0], let s := heard false m ((paired up).upTwin fun w => { w with state := .alone })
      headRx s .twin false false = some m ∧ aloneSolo s = true) ∧
    (let m := forwardedMsg (paired up) (forwardBits (msg0 5 kAssert))
     m.kind ≠ kFence ∧ domOn (paired up) (dSlc (sliceOf m.src)) = true) ∧
    (let m := forwardedMsg (paired up) (forwardBits (msg0 5 kFence))
     m.kind = kFence ∧ (paired up).intake.fences.length < 64) ∧
    (twinUp (paired up) = true ∧ mirroring (paired up) = true ∧
      snapshotsGo ((paired up).upTwin fun w => { w with state := .degraded, txDirty := [4095] }) = true) := by
  decide +kernel

def committing (st : CStage) (s : State) : State :=
  s.upFw fun f => { f with commit := some { mbx := m7, what := .txn Txn.empty, epoch := 1, sentAt := 0, stage := st, merge := 0 } }

theorem wit_CommitMessagesTakeEffect :
    (let s := heard false (.fw 0x01 [1]) (paired up)
     fwHead s false 0x01 = some [1] ∧ readBlocks 2 [] (some (.txn Txn.empty)) = some (.txn Txn.empty) ∧
      (let v := tookFw false s
       peerCmd [1] = none ∧ changesDip Txn.empty = false ∧ v.twin.state ≠ .rewash ∧ isPaired v = true ∧ (coordinating v 1 && !strapB v) = false ∧ v.glb.draining = false ∧ v.glb.merging = false ∧
        admission v Txn.empty (ceilNow v) = true ∧ recheck v none Txn.empty = true)) ∧
    (∀ st ∈ [Pair.rewash, .training, .alone, .solo], fwHead (heard false (.fw 0x01 [1]) ((paired up).upTwin fun w => { w with state := st })) false 0x01 = some [1]) ∧
    (coordinating (committing .vote (paired up)) 1 && !strapB (committing .vote (paired up))) = true ∧
    peerCmd [1, 0x00020501, 64, 0] = some (.witness 64) ∧ peerCmd [1, 0x00010200, 0x80000007] = some (.mask 7 true) ∧
    (tenDips up 9 = false ∧ (Machine.sealing (tookFw false (paired up))).contains 9 = false) ∧
    (let s := heard true (.fw 0x02 [0x10001]) (serving 0x0200 [0] ((paired up).upFw fun f => { f with asks := [{ mbx := some m7, epoch := 1 }] }))
     fwHead s true 0x02 = some [0x10001] ∧ s.fw.commit = none ∧ s.fw.asks = [{ mbx := some m7, epoch := 1 }]) ∧
    readBlocks 2 [0xFFFF] (some (.txn Txn.empty)) = none ∧ readBlocks 3 [0x00040311, 9] (some (.txn Txn.empty)) = some (.destroy 9) ∧
    (∀ n ∈ [0x10001, 0x80000001], let w := BitVec.ofNat 32 n
      let s := serving 0x0101 [] (committing .vote (heard true (.fw 0x02 [w]) (paired up)))
      fwHead s true 0x02 = some [w] ∧ (s.fw.commit.map CommitRun.stage) = some .vote ∧ fld (dwAt [w] 0) 0 16 = (1 : BitVec 16)) ∧
    (let s := at_ 1000000 (committing .vote (paired up))
     0 + 1000000 ≤ s.glb.now.toNat ∧ fwReady s = true) ∧
    (let s := heard false (.fw 0x03 [1]) ((paired up).upFw fun f => { f with prepared := some { what := .txn Txn.empty, epoch := 1 } })
     fwHead s false 0x03 = some [1] ∧ aloneSolo s = false) ∧
    (let s := committing .ack (heard true (.fw 0x04 [1]) (paired up))
     fwHead s true 0x04 = some [1] ∧ (s.fw.commit.map CommitRun.stage) = some .ack) := by
  decide +kernel

def taking (st : SState) : State :=
  withDyn 5 { dynD 5 with st, ev := if st = .idle ∨ st = .active then none else some ev0 } (up.upTwin fun w => { w with takeLeft := some [5] })

def reading (w : RdWhat) (s : State) : State := s.setRd 255 (some { what := w, time := 0 })

theorem wit_LossTakeoverAndLease :
    (twinOn (paired up) = true ∧ hasPartner (paired up) = true) ∧
    (∀ st ∈ [SState.idle, .active, .pending, .held, .activePending, .issued], (taking st).twin.takeLeft = some [5] ∧ applying (taking st) = true ∧
      (taking st).log.fatal = false ∧ domOn (taking st) (dSlc (sliceOf 5#18)) = true ∧ srcLive (taking st) (srcNow (taking st) 5) 0 = true) ∧
    (let s := at_ 10000000 (up.upTwin fun w => { w with state := .alone, witness := some 64, wordAt := 0 })
     (findRdTag s 256 (Config.readTag s.freeCtr)).isSome = true ∧ powered s = true ∧ fwReady s = true ∧ leaseBusy s = false ∧ wordOld s = true) ∧
    (let s := at_ 1000000 (up.upTwin fun w => { w with lease := true, word := some 0 })
     leaseBusy s = false ∧ renewing s = none ∧ s.twin.rewash = none ∧ s.twin.renewAt.toNat + 1000000 ≤ s.glb.now.toNat ∧
      (renewing (committing .renew s)).isSome = true) ∧
    (∀ w ∈ [RdWhat.leaseTake 0 1, .leaseRenew 0 1, .leaseCommit 0 1, .leaseRead], (reading w up).rdOf (fld (255 : BitVec 11) 0 8 : Byte).toNat = some { what := w, time := 0 } ∧
      fld (255 : BitVec 11) 8 3 = (0 : BitVec 3) ∧ fld (0x1FF : BitVec 11) 8 3 ≠ (0 : BitVec 3) ∧ renewing (reading w up) = none) ∧
    (at_ 10000000 up).glb.now.toNat = 0 + 10000000 := by
  decide +kernel

def rewashing (r : Option RewashRun) (s : State) : State := (paired s).upTwin fun w => { w with state := .rewash, rewash := r }
def run0 : RewashRun := { byCommand := none, info := none, keeper := none, sent := false, done := false }
def told (e : Nat) : RewashInfo := infoOf [BitVec.ofNat 32 e]

theorem wit_RewashRuns :
    (let s := rewashing none up
     twinOn s = true ∧ twinUp s = true ∧ fwReady s = true ∧ s.twin.state = .rewash ∧ s.twin.rewash = none) ∧
    (let s := heard false (.fw 0x10 [0]) (rewashing (some run0) up)
     fwHead s false 0x10 = some [0] ∧ owedDestroys s (infoOf [0]) = []) ∧
    (let s := heard false (.fw 0x11 [1]) (rewashing (some { run0 with info := some (told 1), keeper := some false }) up)
     fwHead s false 0x11 = some [1] ∧ s.glb.draining = false ∧ s.glb.merging = false ∧ (fld (dwAt [1] 0) 0 16 : BitVec 16) = (told 1).epoch) ∧
    (fwHead (heard true (.fw 0x12 []) (rewashing (some { run0 with sent := true }) up)) true 0x12 = some []) ∧
    headRx (heard false (.fw 0x20 [255]) (paired up)) .twin false false = some (.fw 0x20 [255]) := by
  decide +kernel

/-! ### Relay -/

def rec0 : RelRec := { dw0 := 0x00140000, dw1 := 0, dw2 := 0, dw3 := 0, tsHi := 0 }
def bundle0 : Bundle := { blk := 5, strap := false, ring := 0, bseq := 7, handle := 3, isSealed := false, recs := [rec0], srcs := [], resends := 3 }
def inBundle0 : InBundle := { key := none, sess := none, ring := 0, ten := 0, recs := [rec0], epoch := 0, badSince := some 0 }
def relay (f : Relay → Relay) (s : State) : State := { s with relay := f s.relay }
def told6 (rsp : Bool) (m : SMsg) : State :=
  session fun x => if rsp then { x with st := .up, rxRsp := [{ m, frees := 1 }] } else { x with st := .up, rxReq := [{ m, frees := 1 }] }

theorem wit_RelayMovesBundles :
    (let s := relay (fun r => { r with stage := [req0 (.remote 5 1)] }) (session fun x => { x with st := .up })
     relayOn s = true ∧ s.log.fatal = false ∧ noRoute s = none ∧ launchable s = some (req0 (.remote 5 1)) ∧ remoteOf (req0 (.remote 5 1)) = some (5, 1)) ∧
    (let s := told6 false (.bundle false 0)
     relayOn s = true ∧ domOn s dDlv = true ∧ headRx s (.relay 5 false) false false = some (.bundle false 0) ∧ rxBundle false 0 = none) ∧
    (let s := ringUp 0 (halfD 0) (relay (fun r => { r with inbox := [inBundle0] }) up)
     s.relay.inbox.find? (fun b => b.ring = 0) = some inBundle0 ∧ inboxHead s 0 = some inBundle0 ∧ mayRelease s 0 rec0 = true ∧ badForSecond (at_ 1000000000 s) inBundle0 = true ∧
      badForSecond (at_ 999999999 s) inBundle0 = false ∧ healthy up 0 = false ∧ mayRelease up 0 rec0 = false) ∧
    (∀ m ∈ [SMsg.bundleAck 5 false 7, .bundleResend 5 false 7], let s := relay (fun r => { r with bundles := [bundle0, { bundle0 with bseq := 8, resends := 4 }] }) (told6 true m)
      relayOn s = true ∧ bundleNamed s 5 false 7 = some bundle0 ∧ headRx s (.relay 5 false) true false = some m) ∧
    (let s := session fun x => { x with st := .training }
     linkOn s (.relay 5 false) = true ∧ (lk s (.relay 5 false)).st = .training) := by
  decide +kernel

/-- A bundle that comes whole, known or new, of a tenant or none, and an inbox that is full (R232, R240). -/
theorem wit_BundleTaken : (rxBundle false (bundleBits up bundle0)).isSome = true ∧
    (∀ x, rxBundle false (bundleBits up bundle0) = some x → x.bseq = 7 ∧ x.ring = 0 ∧ x.handle = 3) := by
  have h : ((rxBundle false (bundleBits up bundle0)).map fun x => (x.bseq, x.ring, x.handle)) = some (7, 0, 3) := by decide +kernel
  refine ⟨by cases e : rxBundle false (bundleBits up bundle0) <;> simp_all, fun x e => by simpa [e] using h⟩

theorem wit_BundleOwner :
    (let s := (ringUp 0 (halfD 0) up).setTenantR 0 { tenantD 0 with handle := 3 }
     tenantOfHandle s 3 = some 0 ∧ ringOwner s 0 = some 0 ∧ acceptedOf s (.relay 5 false) = [] ∧ s.relay.inbox.length < 1024) ∧
    tenantOfHandle up 3 = none ∧ (relay (fun r => { r with inbox := List.replicate 1024 inBundle0 }) up).relay.inbox.length = 1024 ∧
    (7 : BitVec 32) ∈ acceptedOf (relay (fun r => { r with accepted := [(6, [7])] }) up) (.relay 5 false) := by
  decide +kernel

/-- A table with `n` carries at source 0. -/
def carrying (n : Nat) : State :=
  (stagedSrc 0 up).upSlc fun c =>
    { c with selSrc := 0, dyn := List.replicate n (0, { dynD 0 with st := .active, rep := some { ev0 with carry := some 0 } }) }

theorem carriesUsed_carrying (n : Nat) : carriesUsed (carrying n) = n := by
  simp [carriesUsed, carrying, State.upSlc, dynD, ev0]

theorem dyn_carrying (n : Nat) : ((carrying (n + 1)).dyn 0).st ≠ .quarantined := by
  simp [carrying, State.upSlc, State.dyn, Tbl.get, List.replicate_succ]

/-- More carries than there are (R186): the source window answers RESULT 3. -/
theorem wit_CarriesUsedUp : 16384 < carriesUsed (carrying 16385) + installNeeds (carrying 16385) 0 ∧ (carrying 16385).slc.staged = some 0 ∧
    ((carrying 16385).dyn 0).st ≠ .quarantined := by
  exact ⟨by rw [carriesUsed_carrying]; omega, rfl, dyn_carrying 16384⟩

theorem wit_TackInv : TackInv State.reset ∧ step State.reset = .next State.reset := by
  refine ⟨⟨by simp [Tbl.wf, State.reset], by simp [State.reset], fun n _ => rfl⟩, rfl⟩

/-! ### The queue, and single steps -/

/-- The queue is first in, first out, and a block with none waiting stays as it is. -/
theorem test_step_queue : step { up with pending := [.edgeCaught 3, .scanEntry] } = exec (.edgeCaught 3) { up with pending := [.scanEntry] } := rfl

theorem test_no_word_spells_a_command : decodeTableWord 16 0xFFFF = none ∧ up.withFetchWord 16 0xFFFF = up := ⟨rfl, rfl⟩

def after (c : Instr) (s : State) : State :=
  match exec c s with
  | .next t => t
  | _ => s

/-- R69: a count of 255 holds. -/
theorem test_edge_holds : (after (.edgeCaught 7) (up.setEdge 7 255)).edge 7 = 255 := by decide +kernel

/-- Table 6-2: ASSERT makes an idle edge source PENDING, CANCEL makes it IDLE again. -/
theorem test_apply_assert : ((after (.sliceApply (.dip 0) ⟨sliceOf 5#18, by decide⟩) (up.setQueue (sliceOf 5#18) [msg0 5 kAssert])).dyn 5).st = .pending := by
  decide +kernel

theorem test_apply_cancel : ((after (.sliceApply (.dip 0) ⟨sliceOf 5#18, by decide⟩) ((pend up).setQueue (sliceOf 5#18) [msg0 5 kCancel])).dyn 5).st = .idle := by
  decide +kernel

/-- R106: a select makes the winner ISSUED. -/
theorem test_select : ((after (.select ⟨sliceOf 5#18, by decide⟩) (pend up)).dyn 5).st = .issued := by decide +kernel

/-- R296: an acquire of a FREE Tack answers 1 in RESULT and holds it with GEN 1. -/
theorem test_tack : (after (.tkAcqRead 0 .w8 rq0) up).tackAt 0 = { tackD 0 with st := .held, gen := 1 } := by decide +kernel

/-- R131: a consumer index more than a half behind PROD is not taken. -/
theorem test_cons_refused : ((after (.lnConsWrite 0 .w8 1 rq0) (ringUp 0 (halfD 0) up)).half 0).cons = 0 := by decide +kernel

/-- R153: the stall is a flag with a tag, and is counted. -/
theorem test_time_stall : ((after .timeStall up).glb.stall, (after .timeStall up).glb.stallTag, (after .timeStall up).glb.stalls) = (true, 1, 1) := by
  decide +kernel

/-- R297: a warm reset breaks a held Tack with CAUSE 0. -/
theorem test_warm_reset_breaks : ((after .warmResetEntry (up.setTack 9 { tackD 9 with st := .held, lease := 1, endAt := some 5 })).tackAt 9).st = .broken := by
  decide +kernel

/-- Tables 9-9 and 18-2: MBX_NOP answers OK; the time register reads the time. -/
theorem test_nop : ((after (.mbxNop m7) (serving 0 [] up)).mailbox 7).status = stOk := by decide +kernel

theorem test_time_reads : (after (rd 0x60) (at_ 77 up)).out = [rtpOut 77 .ok] := by decide +kernel

end Sys2Proof.Tests
end

section
/-! SUPPORT. O45: the release of a warm reset against what its statement says of the tenant pages' counters. -/

namespace Sys2Proof.Proofs

open Sys2Proof Sys2Proof.Machine Sys2Proof.Safety

/-- A port at which nothing waits has nothing to go on with. -/
theorem rtpGoes_of_none_held {s : State} (h : s.gates.rtpHeld = []) : rtpGoes s = s := by
  simp [rtpGoes, h, serveRtp]

/-- With the supply good, a warm reset's release is `release_`, and the register target port goes on (R310). -/
theorem exec_warmResetRelease {s : State} (x : Straps) (hheld : s.pwr.phase = .held) (hsup : s.pwr.supplyOk = true) :
    exec (.warmResetRelease x) s = .next (rtpGoes (release_ x (releaseKind s.begin_) s.begin_)) := by
  simp [exec, execWarmResetRelease, State.run, doWarmResetRelease, State.begin_, hheld, hsup]

/-- An outstanding event of epoch 0 that a doorbell made and that has no pool slot (R82). -/
def slotlessEv : Ev :=
  { epoch := 0, slot := none, frozen := false, dup := false, carry := none, capture := false, takeover := false }

/-- A warm reset that waits for its release, the supply good: source 5, of tenant 0, was ISSUED when it began and rang again since its
select, so that it has a REPEND event (Table 6-2). -/
def heldWithRepend : State :=
  { State.reset with
    pwr := { Pwr.reset with phase := .held, supplyOk := true, rstWarmN := false }
    slc := { Slices.reset with dyn := [(5, { dynD 5 with st := .issued, ev := some slotlessEv, rep := some slotlessEv })] } }

/-- TC_FOLDED of tenant 0 (Table 15-5). -/
def foldedOff : Nat := tenPage 0 + 0x848

/-- The release returns source 5 with its REPEND event folded into the kept one, and TC_FOLDED of its tenant counts one further folded
doorbell (R310, R334); nothing waits at the register target port. -/
theorem release_counts_folded_repend :
    heldWithRepend.cnt foldedOff = 0 ∧
    (release_ Straps.zero (releaseKind heldWithRepend.begin_) heldWithRepend.begin_).cnt foldedOff = 1 ∧
    (release_ Straps.zero (releaseKind heldWithRepend.begin_) heldWithRepend.begin_).gates.rtpHeld = [] := by
  decide +kernel

/-- Refutes O45: it says that a release changes no counter of a tenant page but TC_NOTE_MISMATCH. A source that was ISSUED with a REPEND event
returns at release, and the fold of that event is counted in TC_FOLDED of its tenant (R310, R334). -/
theorem not_warmResetAndTacks : ¬ Obligations.WarmResetAndTacks := by
  unfold Obligations.WarmResetAndTacks
  intro h
  obtain ⟨-, -, -, -, -, -, -, -, hrelease, -⟩ := h heldWithRepend (by unfold Up; decide)
  obtain ⟨u, hu, -, -, -, -, -, -, -, -, -, -, -, -, -, -, -, -, hkept, -, hgates, -⟩ := hrelease Straps.zero rfl rfl
  obtain ⟨hbefore, hafter, hnone⟩ := release_counts_folded_repend
  -- Nothing waits at the port, so `u` is the released state itself.
  have hu' : release_ Straps.zero (releaseKind heldWithRepend.begin_) heldWithRepend.begin_ = u := by
    rw [exec_warmResetRelease Straps.zero rfl rfl, rtpGoes_of_none_held hnone,
      rtpGoes_of_none_held (congrArg Gates.rtpHeld hgates)] at hu
    exact Host.Outcome.next.inj hu
  have hsame : u.cnt foldedOff = heldWithRepend.cnt foldedOff := hkept foldedOff (by decide) (by decide)
  rw [← hu', hafter, hbefore] at hsame
  exact absurd hsame (by decide)

end Sys2Proof.Proofs
end

section
/-! SUPPORT. O25: a write of PRF_SEL and the end of a change of profile (R60, Table 3-5). -/

namespace Sys2Proof.Proofs

open Sys2Proof Sys2Proof.Machine Sys2Proof.Safety

/-! ### What waking a domain keeps -/

/-- A wake asks for power; no domain is on for it yet (R40). -/
@[simp] theorem wake_on (d : Nat) (s : State) : (wake d s).pwr.on = s.pwr.on := by
  unfold wake powerOn
  split
  · rfl
  · split <;> rfl

theorem foldl_wake_on (l : List Nat) (s : State) : (l.foldl (fun s d => wake d s) s).pwr.on = s.pwr.on := by
  induction l generalizing s with
  | nil => rfl
  | cons d l ih => rw [List.foldl_cons, ih, wake_on]

theorem foldl_wake_only (l : List Nat) (s : State) : Only [.pwr] s (l.foldl (fun s d => wake d s) s) :=
  blank_foldl (fun s d => blank_wake d s (by decide)) l s

/-! ### The start of a change -/

/-- Step 2 of Table 3-5: the gather windows take what has come and close. -/
def shutWindows (s : State) : State :=
  (List.range 4).foldl (fun s c => s.setGrants c ((s.grants c).map shutWindow)) (joinWindows s)

theorem shutWindows_only (s : State) : Only [.slc, .dlv, .ctr] s (shutWindows s) :=
  (blank_foldl (fun s c => blank_setGrants s c _ (by decide)) _ _).trans (blank_joinWindows s (by decide) (by decide) (by decide))

/-- While BUSY, or with REQ at ACTIVE, nothing starts (R60). -/
theorem startProfile_idle {s : State} (h : ¬ (s.glb.prfBusy = false ∧ s.glb.prfReq ≠ s.glb.prfActive)) : startProfile s = s :=
  if_pos (by simpa [Classical.or_iff_not_imp_left] using h)

/-- Steps 1 to 3 of Table 3-5 in one line: the domains woken are those that FRUGAL gated, or none. -/
theorem startProfile_starts {s : State} (h : s.glb.prfBusy = false ∧ s.glb.prfReq ≠ s.glb.prfActive) :
    startProfile s = (if s.glb.prfActive = pFrugal then frugalDomains else []).foldl (fun s d => wake d s)
      (shutWindows (s.upGlb fun g => { g with prfBusy := true, prfNext := g.prfReq })) := by
  obtain ⟨hbusy, hreq⟩ := h
  rw [startProfile, if_neg (by simp [hbusy, hreq])]
  by_cases hf : s.glb.prfActive = pFrugal
  · rw [if_pos hf, if_pos hf, shutWindows]
  · rw [if_neg hf, if_neg hf, shutWindows, List.foldl_nil]

theorem startProfile_on (s : State) : (startProfile s).pwr.on = s.pwr.on := by
  by_cases h : s.glb.prfBusy = false ∧ s.glb.prfReq ≠ s.glb.prfActive
  · rw [startProfile_starts h, foldl_wake_on, (shutWindows_only _).pwr (by decide)]
    rfl
  · rw [startProfile_idle h]

theorem startProfile_glb (s : State) : (startProfile s).glb =
    if s.glb.prfBusy = false ∧ s.glb.prfReq ≠ s.glb.prfActive then { s.glb with prfBusy := true, prfNext := s.glb.prfReq } else s.glb := by
  by_cases h : s.glb.prfBusy = false ∧ s.glb.prfReq ≠ s.glb.prfActive
  · rw [startProfile_starts h, (foldl_wake_only _ _).glb (by decide), (shutWindows_only _).glb (by decide), if_pos h]
    rfl
  · rw [startProfile_idle h, if_neg h]

/-! ### A write of PRF_SEL -/

/-- A write that reaches the low half has bits [1:0] of its data there. -/
theorem fld_accData_low {a : Acc} (ha : a ≠ .hi) (d : Reg64) : (fld (accData a d) 0 2 : BitVec 2) = fld d 0 2 := by
  cases a with
  | w8 => rfl
  | lo =>
    ext i hi
    have hmask : ∀ j < 2, (0xFFFFFFFF#64).getLsbD j = true := by decide
    simp only [accData, fld, BitVec.getElem_extractLsb', BitVec.getLsbD_and, hmask _ (Nat.zero_add i ▸ hi), Bool.and_true]
  | hi => exact absurd rfl ha

theorem writeReg_prfSel {q : RtpReq} (ha : rtpAcc q ≠ .hi) (ten : BitVec 8) (s : State) :
    writeReg q ten .prfSel s = setProfile (fld q.data 0 2) s := by
  rw [writeReg, onLow, if_neg ha, fld_accData_low ha]

theorem setProfile_on (p : BitVec 2) (s : State) : (setProfile p s).pwr.on = s.pwr.on := startProfile_on _

theorem setProfile_glb (p : BitVec 2) (s : State) : (setProfile p s).glb =
    if s.glb.prfBusy = false ∧ p ≠ s.glb.prfActive then { s.glb with prfReq := p, prfBusy := true, prfNext := p }
    else { s.glb with prfReq := p } := startProfile_glb _

/-- A step that takes a request counts it; until the effect of the request nothing else has changed. -/
theorem rtpTaken_begin_only (s : State) : Only [.out, .stepNo, .ctr] s (rtpTaken s.begin_) := by
  simp [Only]

/-- R60 for an access that reaches REQ, which lies in the low half of PRF_SEL (Table 3-4). -/
theorem prfSel_write_takes_req {c : Instr} {q : RtpReq} {k : Nat} {s : State} (hw : LetsWrite c q .prfSel k s) (ha : rtpAcc q ≠ .hi) :
    WritesOk c s fun t => Only [.out, .stepNo, .pwr, .glb, .slc, .dlv, .ctr] s t ∧ t.pwr.on = s.pwr.on ∧
      t.glb = if s.glb.prfBusy = false ∧ fld q.data 0 2 ≠ s.glb.prfActive then
        { s.glb with prfReq := fld q.data 0 2, prfBusy := true, prfNext := fld q.data 0 2 } else { s.glb with prfReq := fld q.data 0 2 } := by
  have hstart := rtpTaken_begin_only s
  refine ⟨_, doRtp_write hw, by simp [rtpAnswer, State.emit], ?_⟩
  rw [writeReg_prfSel ha]
  refine ⟨by simp [Only], ?_, ?_⟩
  · exact (setProfile_on _ _).trans (by rw [hstart.pwr (by decide)])
  · exact (setProfile_glb _ _).trans (by rw [hstart.glb (by decide)])

/-! ### The end of a change -/

/-- Step 5 writes ACTIVE, BUSY and DIP_STEER_LOW; what it writes of the sources touches neither the profile nor power. -/
theorem takeProfile_only (s : State) : Only [.dlv, .slc, .ctr]
    ((s.upGlb fun g => { g with prfActive := g.prfNext, prfBusy := false }).upPwr fun p => { p with steerLow := decide (s.glb.prfNext = pFrugal) })
    (takeProfile s) :=
  (blank_foldl (fun s k => blank_exemptOne _ _ k s (by decide) (by decide)) _ _).trans (blank_upDlv _ _ (by decide))

theorem exec_profileChangeComplete {s : State} (hup : Up s) (hbusy : s.glb.prfBusy = true) (hawake : awake s = true)
    (hacc : accepting s = true) : exec .profileChangeComplete s = .next (startProfile (settleMbx (takeProfile s.begin_))) := by
  have hgo : (s.begin_.glb.prfBusy && awake s.begin_ && accepting s.begin_) = true := by
    rw [Bool.and_eq_true, Bool.and_eq_true]
    exact ⟨⟨hbusy, hawake⟩, hacc⟩
  exact congrArg _ ((State.run_up hup).trans (if_pos hgo))

/-- Settles O25: a write of PRF_SEL ends in `startProfile`, whose windows and wakes touch neither the profile nor a domain that is on, and step 5
writes ACTIVE, BUSY and DIP_STEER_LOW before anything that waited for BUSY goes on. -/
theorem profileChanges : Obligations.ProfileChanges := by
  unfold Obligations.ProfileChanges
  refine fun s => ⟨fun c q k hw ha => prfSel_write_takes_req hw ha, fun hup hbusy hawake hacc => ?_⟩
  have htake := takeProfile_only s.begin_
  exact ⟨_, exec_profileChangeComplete hup hbusy hawake hacc, htake.glb (by decide), by rw [htake.pwr (by decide)]; rfl,
    by rw [htake.pwr (by decide)]; rfl⟩

end Sys2Proof.Proofs
end

section
/-! SUPPORT. The state in which the effect of a port request begins, and what an expert operation reports of a sealed tenant (O22 to O24). -/

namespace Sys2Proof.Proofs

open Sys2Proof Sys2Proof.Machine Sys2Proof.Safety

/-! ### A request taken -/

/-- A state that agrees outside the counters is the other with its counters replaced. -/
theorem eq_upCtr_of_only {s t : State} (h : Only [.ctr] s t) : t = s.upCtr fun _ => t.ctr := by
  cases s
  cases t
  simpa [Only, blank, State.upCtr] using h

/-- The state in which the effect of a port request begins: the step has begun, and the counters, which count the request, hold `x`.
What reads no counter, output or step reads here, by definition, what it reads in `s`. -/
def entered (x : Ctr) (s : State) : State := s.begin_.upCtr fun _ => x

theorem rtpTaken_begin (s : State) : rtpTaken s.begin_ = entered (rtpTaken s.begin_).ctr s :=
  eq_upCtr_of_only (blank_rtpTaken s.begin_ (by decide))

@[simp] theorem blank_entered {ks : List Comp} (x : Ctr) (s : State) (ho : Comp.out ∈ ks) (hn : Comp.stepNo ∈ ks) (hc : Comp.ctr ∈ ks) :
    blank ks (entered x s) = blank ks s := by
  simp [entered, ho, hn, hc]

@[simp] theorem entered_slc (x : Ctr) (s : State) : (entered x s).slc = s.slc := rfl
@[simp] theorem entered_dlv (x : Ctr) (s : State) : (entered x s).dlv = s.dlv := rfl

/-- A write that is let through runs from an entered state. -/
theorem exec_write {c : Instr} {q : RtpReq} {r : Reg} {k : Nat} {s : State} (hw : LetsWrite c q r k s) :
    ∃ x, exec c s = .next (rtpAnswer 0 .ok (writeReg q (regTen (s.region k)) r (entered x s))) :=
  ⟨_, by rw [doRtp_write hw, rtpTaken_begin]⟩

/-- A write that is let through answers OK, so a claim about it is one about its effect. -/
theorem writesOk_of_effect {c : Instr} {q : RtpReq} {r : Reg} {k : Nat} {s : State} {P : State → Prop} (hw : LetsWrite c q r k s)
    (h : ∀ x, P (rtpAnswer 0 .ok (writeReg q (regTen (s.region k)) r (entered x s)))) : WritesOk c s P := by
  obtain ⟨x, hx⟩ := exec_write hw
  exact ⟨_, hx, by simp [rtpAnswer, State.emit], h x⟩

@[simp] theorem rtpAnswer_slc (w : Reg64) (st : RtpStatus) (s : State) : (rtpAnswer w st s).slc = s.slc := rfl
@[simp] theorem rtpAnswer_dlv (w : Reg64) (st : RtpStatus) (s : State) : (rtpAnswer w st s).dlv = s.dlv := rfl

/-- A field within the low half of the data, for a write that reaches the low half. -/
theorem fld_accData_of_low {a : Acc} (ha : a ≠ .hi) (d : Reg64) {lo n : Nat} (hn : lo + n ≤ 32) :
    (fld (accData a d) lo n : BitVec n) = fld d lo n := by
  cases a with
  | w8 => rfl
  | lo =>
    have hmask : ∀ j < 32, (0xFFFFFFFF#64).getLsbD j = true := by decide
    ext i hi
    simp only [accData, fld, BitVec.getElem_extractLsb', BitVec.getLsbD_and, hmask (lo + i) (by omega), Bool.and_true]
  | hi => exact absurd rfl ha

/-! ### The report of a sealed tenant (R96, R103) -/

@[simp] theorem sealedReport_slc (q : RtpReq) (s : State) : (sealedReport q s).slc = s.slc :=
  Only.slc (cs := [.gates, .tly, .ctr, .log]) (blank_sealedReport q s (by decide) (by decide) (by decide) (by decide)) (by decide)

@[simp] theorem sealedReport_dlv (q : RtpReq) (s : State) : (sealedReport q s).dlv = s.dlv := report_dlv _ _ _

/-- GT_VIOL_LAST of the tenant charged takes the report whole; the log entry that follows lies in the log alone. -/
theorem report_violLast (v : Viol) (t : BitVec 8) (s : State) : (report v t s).violLast t.toNat = violWords v t s.glb.now := by
  refine (State.violLast_congr _ _ _ (Only.gates (cs := [.log]) (blank_logCEKind _ _ _ _ (by decide)) (by decide))).trans ?_
  exact State.violLast_setViolLast_self _ _ _

@[simp] theorem sealedReport_violLast (q : RtpReq) (s : State) :
    (sealedReport q s).violLast 0 = violWords { rtpViol q vSealed none with addr := 0 } 0 s.glb.now :=
  report_violLast { rtpViol q vSealed none with addr := 0 } 0 s

end Sys2Proof.Proofs
end

section
/-! SUPPORT. O22: SLC_MASK_OP (R110 to R112, Table 6-5). -/

namespace Sys2Proof.Proofs

open Sys2Proof Sys2Proof.Machine Sys2Proof.Safety

/-! ### The mask operation -/

theorem setMaskAll_main (k : Nat) (v : Bool) (s : State) (j : Nat) :
    (setMaskAll k v s).main j = if j = k then srcSetMask (s.main k) v else s.main j :=
  State.main_setMain s k _ j

theorem setMaskAll_dyn_ne {k j : Nat} (hj : j ≠ k) (v : Bool) (s : State) : (setMaskAll k v s).dyn j = s.dyn j :=
  (State.dyn_setDyn _ _ _ _).trans (if_neg hj)

/-- MASK reaches the carries of a source's events, neither its STATE nor its withdraw (R110). -/
theorem setMaskAll_dyn_self (k : Nat) (v : Bool) (s : State) :
    ((setMaskAll k v s).dyn k).st = (s.dyn k).st ∧ ((setMaskAll k v s).dyn k).withdraw = (s.dyn k).withdraw := by
  rw [setMaskAll, State.dyn_setDyn_self]
  exact ⟨rfl, rfl⟩

theorem perf_slc (d code : Nat) (s : State) : (perf d code s).slc = s.slc :=
  Only.slc (cs := [.ctr]) (blank_perf d code s (by decide)) (by decide)

/-- Of the slices a withdraw writes the source's record alone: its event freezes, STATE stays, and a withdraw is out (R117). -/
theorem sendWithdraw_slc (k : Nat) (p : Purpose) (s : State) :
    ∃ e w, (sendWithdraw k p s).slc = (s.setDyn k { s.dyn k with ev := e, withdraw := some w }).slc := by
  unfold sendWithdraw
  dsimp only
  split
  · exact ⟨_, _, perf_slc _ _ _⟩
  · exact ⟨_, _, rfl⟩

/-- A mask of an ISSUED source sends a withdraw (R111). -/
theorem maskOp_issued {k : Nat} {v : Bool} {s : State} (h : v = true ∧ (s.dyn k).st = .issued) :
    maskOp k v s = sendWithdraw k .mask (setMaskAll k v s) := by
  obtain ⟨hv, hst⟩ := h
  exact if_pos (by rw [(setMaskAll_dyn_self k v s).1, hv, hst]; rfl)

theorem maskOp_quiet {k : Nat} {v : Bool} {s : State} (h : ¬ (v = true ∧ (s.dyn k).st = .issued)) : maskOp k v s = setMaskAll k v s :=
  if_neg (by rwa [(setMaskAll_dyn_self k v s).1, Bool.and_eq_true, decide_eq_true_iff])

/-- What the mask operation does to the tables of the slices (R110, R111). -/
theorem maskOp_tables (k : Nat) (v : Bool) (s : State) :
    (maskOp k v s).main k = srcSetMask (s.main k) v ∧
    (∀ j, j ≠ k → (maskOp k v s).main j = s.main j ∧ (maskOp k v s).dyn j = s.dyn j) ∧
    ((maskOp k v s).dyn k).st = (s.dyn k).st ∧
    (v = true → (s.dyn k).st = .issued → ((maskOp k v s).dyn k).withdraw.isSome) ∧
    ((v = false ∨ (s.dyn k).st ≠ .issued) → ((maskOp k v s).dyn k).withdraw = (s.dyn k).withdraw) := by
  obtain ⟨hst, hwd⟩ := setMaskAll_dyn_self k v s
  by_cases h : v = true ∧ (s.dyn k).st = .issued
  · rw [maskOp_issued h]
    obtain ⟨e, w, hslc⟩ := sendWithdraw_slc k .mask (setMaskAll k v s)
    have hmain (j : Nat) := State.main_congr _ _ j hslc
    have hdyn (j : Nat) := State.dyn_congr _ _ j hslc
    refine ⟨?_, fun j hj => ⟨?_, ?_⟩, ?_, fun _ _ => ?_, fun hno => absurd hno (by simp [h])⟩
    · exact (hmain k).trans ((setMaskAll_main k v s k).trans (if_pos rfl))
    · exact (hmain j).trans ((setMaskAll_main k v s j).trans (if_neg hj))
    · rw [hdyn, State.dyn_setDyn, if_neg hj, setMaskAll_dyn_ne hj]
    · rw [hdyn, State.dyn_setDyn_self, hst]
    · rw [hdyn, State.dyn_setDyn_self]
      rfl
  · rw [maskOp_quiet h]
    refine ⟨?_, fun j hj => ⟨?_, setMaskAll_dyn_ne hj v s⟩, hst, fun hv hi => absurd ⟨hv, hi⟩ h, fun _ => hwd⟩
    · rw [setMaskAll_main, if_pos rfl]
    · rw [setMaskAll_main, if_neg hj]

/-! ### A write of SLC_MASK_OP -/

/-- SRC and VALUE as a write leaves them. -/
def maskFields (q : RtpReq) (s : State) : State :=
  s.upSlc fun c => { c with maskSrc := fld (accMerge (rtpAcc q) (maskOpWord s) q.data) 0 18,
                            maskValue := bitAt (accMerge (rtpAcc q) (maskOpWord s) q.data) 18 }

theorem writeReg_maskOp (q : RtpReq) (ten : BitVec 8) (s : State) :
    writeReg q ten .maskOp s = if accOne (rtpAcc q) q.data 63 then maskGo q (maskFields q s) else maskFields q s := rfl

theorem maskGo_running {q : RtpReq} {s : State} (h : s.slc.maskRun.isSome = true) : maskGo q s = s := if_pos h

theorem maskGo_sealed {q : RtpReq} {s : State} (h : s.slc.maskRun = none) (hs : sealedTen s (srcTen (srcNow s s.slc.maskSrc.toNat)) = true) :
    maskGo q s = (sealedReport q s).upSlc fun c => { c with maskResult := 1 } := by
  simp [maskGo, h, hs]

theorem maskGo_quarantined {q : RtpReq} {s : State} (h : s.slc.maskRun = none)
    (hs : sealedTen s (srcTen (srcNow s s.slc.maskSrc.toNat)) = false) (hq : (s.dyn s.slc.maskSrc.toNat).st = .quarantined) :
    maskGo q s = s.upSlc fun c => { c with maskResult := 2 } := by
  simp [maskGo, h, hs, hq]

theorem maskGo_runs {q : RtpReq} {s : State} (h : s.slc.maskRun = none)
    (hs : sealedTen s (srcTen (srcNow s s.slc.maskSrc.toNat)) = false) (hq : (s.dyn s.slc.maskSrc.toNat).st ≠ .quarantined) :
    maskGo q s = settleMbx ((maskOp s.slc.maskSrc.toNat s.slc.maskValue s).upSlc fun c => { c with maskRun := some s.slc.maskSrc }) := by
  simp [maskGo, h, hs, hq]

/-- Settles O22: a write of SLC_MASK_OP is `maskFields` followed, under GO, by one of the four outcomes of `maskGo`. -/
theorem maskOperationRegister : Obligations.MaskOperationRegister := by
  unfold Obligations.MaskOperationRegister
  intro c q k s hw
  refine ⟨fun hkept => writesOk_of_effect hw fun x => ?_, fun hgo hrun => ⟨fun hs => ?_, fun hs hq => ?_, fun hs hq => ?_⟩⟩
  · have heff : writeReg q (regTen (s.region k)) .maskOp (entered x s) = maskFields q (entered x s) := by
      rw [writeReg_maskOp]
      rcases hkept with hno | hrun
      · rw [hno]; rfl
      · rw [maskGo_running (s := maskFields q (entered x s)) hrun, ite_self]
    rw [heff]
    exact ⟨by simp [Only, maskFields, rtpAnswer], rfl⟩
  · refine writesOk_of_effect hw fun x => ?_
    rw [writeReg_maskOp, if_pos hgo, maskGo_sealed (s := maskFields q (entered x s)) hrun hs]
    refine ⟨by simp [Only, maskFields, rtpAnswer], ?_, ?_⟩
    · rw [rtpAnswer_slc, State.upSlc_self, sealedReport_slc]
      rfl
    · exact sealedReport_violLast q (maskFields q (entered x s))
  · refine writesOk_of_effect hw fun x => ?_
    rw [writeReg_maskOp, if_pos hgo, maskGo_quarantined (s := maskFields q (entered x s)) hrun hs hq]
    exact ⟨by simp [Only, maskFields, rtpAnswer], rfl⟩
  · obtain ⟨x, hx⟩ := exec_write hw
    rw [writeReg_maskOp, if_pos hgo, maskGo_runs (s := maskFields q (entered x s)) hrun hs hq] at hx
    exact ⟨_, hx, rfl, maskOp_tables _ _ (maskFields q (entered x s))⟩

end Sys2Proof.Proofs
end

section
/-! SUPPORT. O23: the source and ring windows (R124, R125, R324, R325, Tables 7-2, 7-3 and 18-10), the arbiter and the pacer's floor. -/

namespace Sys2Proof.Proofs

open Sys2Proof Sys2Proof.Machine Sys2Proof.Safety

/-! ### GO of the source window -/

/-- The source window after an install: nothing staged, RESULT 00. -/
def srcDone (s : State) : State := srcResult 0 (s.upSlc fun c => { c with staged := none })

theorem srcDone_slc (s : State) : (srcDone s).slc = { s.slc with staged := none, srcResult := 0 } := rfl
theorem main_srcDone (s : State) (k : Nat) : (srcDone s).main k = s.main k := rfl
theorem dyn_srcDone (s : State) (k : Nat) : (srcDone s).dyn k = s.dyn k := rfl
theorem shadow_srcDone (s : State) (k : Nat) : (srcDone s).shadow k = s.shadow k := rfl

theorem srcGo_unstaged {q : RtpReq} {s : State} (h : s.slc.staged = none) : srcGo q s = srcResult 0 s := by
  simp only [srcGo, h]

section
variable {q : RtpReq} {s : State} {e : SrcEntry} (h : s.slc.staged = some e)
include h

theorem srcGo_sealed (hs : (sealedTen s (srcTen (srcNow s s.slc.selSrc.toNat)) || sealedTen s (srcTen e)) = true) :
    srcGo q s = srcResult 1 (sealedReport q s) := by
  simp only [srcGo, h, hs, if_true]

theorem srcGo_quarantined (hs : (sealedTen s (srcTen (srcNow s s.slc.selSrc.toNat)) || sealedTen s (srcTen e)) = false)
    (hq : (s.dyn s.slc.selSrc.toNat).st = .quarantined) : srcGo q s = srcResult 2 s := by
  simp only [srcGo, h, hs, hq, Bool.false_eq_true, if_false, if_true]

theorem srcGo_crowded (hs : (sealedTen s (srcTen (srcNow s s.slc.selSrc.toNat)) || sealedTen s (srcTen e)) = false)
    (hq : (s.dyn s.slc.selSrc.toNat).st ≠ .quarantined) (hc : 16384 < carriesUsed s + installNeeds s s.slc.selSrc.toNat) :
    srcGo q s = srcResult 3 s := by
  simp only [srcGo, h, hs, hq, Bool.false_eq_true, if_false]
  exact if_pos hc

theorem srcGo_installs (hs : (sealedTen s (srcTen (srcNow s s.slc.selSrc.toNat)) || sealedTen s (srcTen e)) = false)
    (hq : (s.dyn s.slc.selSrc.toNat).st ≠ .quarantined) (hc : carriesUsed s + installNeeds s s.slc.selSrc.toNat ≤ 16384) :
    srcGo q s = afterDlv (settleLatches (srcDone (installEntry s.slc.selSrc.toNat (srcClean e) s))) := by
  simp only [srcGo, h, hs, hq, Bool.false_eq_true, if_false]
  exact if_neg (Nat.not_lt.mpr hc)

end

/-- PORT lies below STATE and the reserved bits (Table 4-1). -/
theorem srcPort_srcClean (e : SrcEntry) : srcPort (srcClean e) = srcPort e := by
  have hmask : ∀ j < 8, (0x007FFFFFFFFFFFFF#64).getLsbD (47 + j) = true := by decide
  ext i hi
  simp only [srcPort, srcClean, fld, BitVec.getElem_extractLsb', BitVec.getLsbD_and, hmask i hi, Bool.and_true]

/-- What an install of source `k` leaves of its own tables (R325). -/
theorem installEntry_self (k : Nat) (e : SrcEntry) (s : State) :
    (installEntry k e s).main k = e ∧ (installEntry k e s).shadow k = (s.shadow k).map (fun x => { x with entry := e }) ∧
    (installEntry k e s).dyn k =
      { s.dyn k with ev := (s.dyn k).ev.map (installCarry s k), rep := (s.dyn k).rep.map (installCarry s k), tagPort := srcPort e } :=
  ⟨State.main_setMain_self _ _ _, State.shadow_setShadow_self _ _ _, State.dyn_setDyn_self _ _ _⟩

theorem installEntry_ne {k i : Nat} (hi : i ≠ k) (e : SrcEntry) (s : State) :
    (installEntry k e s).main i = s.main i ∧ (installEntry k e s).dyn i = s.dyn i ∧ (installEntry k e s).shadow i = s.shadow i :=
  ⟨(State.main_setMain _ _ _ _).trans (if_neg hi), (State.dyn_setDyn _ _ _ _).trans (if_neg hi),
    (State.shadow_setShadow _ _ _ _).trans (if_neg hi)⟩

/-! ### Delivery leaves the ring entries as they are -/

theorem ring_foldl {α : Type} {g : State → α → State} (hg : ∀ s a, (g s a).dlv.ring = s.dlv.ring) (l : List α) (s : State) :
    (l.foldl g s).dlv.ring = s.dlv.ring := by
  induction l generalizing s with
  | nil => rfl
  | cons a l ih => rw [List.foldl_cons, ih, hg]

theorem setHalf_ring (r : Nat) (h : Half) (s : State) : (s.setHalf r h).dlv.ring = s.dlv.ring := rfl

theorem noteFull_ring (r : Nat) (s : State) : (noteFull r s).dlv.ring = s.dlv.ring := by
  unfold noteFull
  dsimp only
  split
  · rw [bump_dlv, perf_dlv, bump_dlv]
    rfl
  · rfl

theorem reserve_ring (r : Nat) (s : State) : (reserve r s).dlv.ring = s.dlv.ring := noteFull_ring _ _
theorem release_ring (r : Nat) (s : State) : (release r s).dlv.ring = s.dlv.ring := noteFull_ring _ _

theorem guarToken_ring {r : Nat} {s t : State} (h : guarToken r s = some t) : t.dlv.ring = s.dlv.ring := by
  unfold guarToken at h
  split at h
  · rw [← Option.some.inj h, State.setBucket, State.upDlv_self]
  · cases h

theorem poolToken_ring {s t : State} (h : poolToken s = some t) : t.dlv.ring = s.dlv.ring := by
  unfold poolToken at h
  split at h
  · rw [← Option.some.inj h, State.upDlv_self]
  · cases h

theorem anyToken_ring {r : Nat} {s t : State} (h : anyToken r s = some t) : t.dlv.ring = s.dlv.ring := by
  unfold anyToken at h
  split at h
  · cases h; rfl
  · split at h
    · next hg => cases h; exact guarToken_ring hg
    · exact poolToken_ring h

theorem entryToken_ring {l r : Nat} {s t : State} (h : entryToken l r s = some t) : t.dlv.ring = s.dlv.ring := by
  unfold entryToken at h
  split at h
  · exact anyToken_ring h
  · exact guarToken_ring h

theorem present_ring (q : Req) (s : State) : (present q s).dlv.ring = s.dlv.ring := by
  unfold present
  dsimp only
  split <;> rfl

theorem paceWait_ring (q : Req) (s : State) : (paceWait q s).dlv.ring = s.dlv.ring := by
  rw [paceWait, perf_dlv, bump_dlv]
  rfl

theorem presentMember_ring (q : Req) (r : Nat) (s : State) : (presentMember q r s).dlv.ring = s.dlv.ring := by
  unfold presentMember
  split
  · next h => exact (present_ring _ _).trans (entryToken_ring h)
  · exact paceWait_ring _ _

theorem presentResidue_ring (k r m : Nat) (s : State) : (presentResidue k r m s).dlv.ring = s.dlv.ring := by
  unfold presentResidue
  split
  · split
    · exact (presentMember_ring _ _ _).trans (reserve_ring _ _)
    · rfl
  · rfl

theorem presentResidues_ring (r : Nat) (s : State) : (presentResidues r s).dlv.ring = s.dlv.ring :=
  ring_foldl (fun s k => ring_foldl (fun s m => presentResidue_ring k r m s) _ s) _ s

theorem mcFinish_ring (k : Nat) (s : State) : (mcFinish k s).dlv.ring = s.dlv.ring := by
  unfold mcFinish
  split
  · split
    · rw [afterLaunch_dlv]
      rfl
    · rfl
  · rfl

theorem skipResidues_ring (r : Nat) (s : State) : (skipResidues r s).dlv.ring = s.dlv.ring := by
  refine ring_foldl (fun s k => ?_) _ s
  dsimp only
  split
  · split
    · rfl
    · rw [mcFinish_ring, countSkips_dlv]
      rfl
  · rfl

theorem skipDisabled_ring (r : Nat) (s : State) : (skipDisabled r s).dlv.ring = s.dlv.ring := by
  unfold skipDisabled
  split
  · rfl
  · exact skipResidues_ring r s

theorem residueAdd_ring (k m : Nat) (s : State) : (residueAdd k m s).dlv.ring = s.dlv.ring := by
  unfold residueAdd
  split <;> rfl

/-- Of the works behind a request only a member's touches DLV at all, and that its residue alone. -/
theorem backOut_ring (q : Req) (s : State) : (backOut q s).dlv.ring = s.dlv.ring := by
  unfold backOut
  split
  · rw [settleWin_dlv]
  · rw [fenceBack_dlv]
  · split <;> rfl
  · exact residueAdd_ring _ _ _
  · exact residueAdd_ring _ _ _
  · rfl

theorem returnReq_ring (q : Req) (s : State) : (returnReq q s).dlv.ring = s.dlv.ring := by
  unfold returnReq
  dsimp only
  rw [bump_dlv, backOut_ring]
  split
  · exact release_ring _ _
  · rfl

theorem removeReqs_ring (p : Req → Bool) (s : State) : (removeReqs p s).dlv.ring = s.dlv.ring := by
  unfold removeReqs
  generalize List.range 16 = l
  exact ring_foldl (g := fun s l => (s.setLq l ((s.lq l).filter fun q => !p q)).setPaceQ l ((s.paceQ l).filter fun q => !p q))
    (fun _ _ => rfl) l s

theorem restartHalf_ring (r : Nat) (s : State) : (restartHalf r s).dlv.ring = s.dlv.ring := by
  unfold restartHalf
  dsimp only
  rw [presentResidues_ring, ring_foldl fun s q => returnReq_ring _ s, setHalf_ring, removeReqs_ring]

/-! ### GO of the ring window -/

/-- Both versions of the ring take an expert's entry; restart and skips leave the entries alone (R125). -/
theorem installExpert_ring (r : Nat) (e : RingEnt) (s : State) :
    (installExpert r e s).dlv.ring = (s.setRingV r { s.ringV r with cur := e, prior := e }).dlv.ring := by
  unfold installExpert
  dsimp only
  rw [skipDisabled_ring]
  split
  · exact restartHalf_ring r _
  · rfl

theorem installExpert_ringV (r : Nat) (e : RingEnt) (s : State) (i : Nat) :
    (installExpert r e s).ringV i = if i = r then { s.ringV r with cur := e, prior := e } else s.ringV i := by
  rw [State.ringV, installExpert_ring]
  exact State.ringV_setRingV s r _ i

theorem rstgGo_unstaged {q : RtpReq} {s : State} (h : s.dlv.rstg = none) : rstgGo q s = rstgResult 0 s := by
  simp only [rstgGo, h]

section
variable {q : RtpReq} {s : State} {e : RingEnt} (h : s.dlv.rstg = some e)
include h

theorem rstgGo_sealed (hs : (sealedTen s (ringTen (ringNow s s.dlv.rstgSel.toNat)) || sealedTen s (ringTen e)) = true) :
    rstgGo q s = rstgResult 1 (sealedReport q s) := by
  simp only [rstgGo, h, hs, if_true]

theorem rstgGo_refused (hs : (sealedTen s (ringTen (ringNow s s.dlv.rstgSel.toNat)) || sealedTen s (ringTen e)) = false)
    (hok : rstgOk s s.dlv.rstgSel.toNat e = false) : rstgGo q s = rstgResult 3 s := by
  simp only [rstgGo, h, hs, hok, Bool.not_false, Bool.false_eq_true, if_false, if_true]

theorem rstgGo_moves (hs : (sealedTen s (ringTen (ringNow s s.dlv.rstgSel.toNat)) || sealedTen s (ringTen e)) = false)
    (hok : rstgOk s s.dlv.rstgSel.toNat e = true)
    (hm : (healthy s s.dlv.rstgSel.toNat && ringMoves e (ringNow s s.dlv.rstgSel.toNat)) = true) : rstgGo q s = rstgResult 2 s := by
  simp only [rstgGo, h, hs, hok, hm, Bool.not_true, Bool.false_eq_true, if_false, if_true]

theorem rstgGo_installs (hs : (sealedTen s (ringTen (ringNow s s.dlv.rstgSel.toNat)) || sealedTen s (ringTen e)) = false)
    (hok : rstgOk s s.dlv.rstgSel.toNat e = true)
    (hm : (healthy s s.dlv.rstgSel.toNat && ringMoves e (ringNow s s.dlv.rstgSel.toNat)) = false) :
    rstgGo q s = afterDlv (rstgResult 0 ((installExpert s.dlv.rstgSel.toNat e s).upDlv fun d => { d with rstg := none })) := by
  simp only [rstgGo, h, hs, hok, hm, Bool.not_true, Bool.false_eq_true, if_false]

end

/-! ### Writes that reach GO -/

theorem writeReg_srcCtl (q : RtpReq) (ten : BitVec 8) (s : State) :
    writeReg q ten .srcCtl s = if accOne (rtpAcc q) q.data 0 then srcGo q s else s := rfl

theorem writeReg_rstgCtl (q : RtpReq) (ten : BitVec 8) (s : State) :
    writeReg q ten .rstgCtl s = if accOne (rtpAcc q) q.data 0 then rstgGo q s else s := rfl

/-- An install from the source window: the entry is in force in main table and shadow, events keep theirs in carries, and nothing is staged
(R325). -/
theorem srcInstalled_tables (k : Nat) (e : SrcEntry) (s : State) :
    let u := srcDone (installEntry k (srcClean e) s)
    u.main k = srcClean e ∧ u.shadow k = (s.shadow k).map (fun x => { x with entry := srcClean e }) ∧ u.slc.staged = none ∧
      u.slc.srcResult = 0 ∧ (u.dyn k).st = (s.dyn k).st ∧ (u.dyn k).tagPort = srcPort e ∧
      (u.dyn k).ev = (s.dyn k).ev.map (installCarry s k) ∧ (u.dyn k).rep = (s.dyn k).rep.map (installCarry s k) ∧
      ∀ i, i ≠ k → u.main i = s.main i ∧ u.dyn i = s.dyn i ∧ u.shadow i = s.shadow i := by
  obtain ⟨hmain, hshadow, hdyn⟩ := installEntry_self k (srcClean e) s
  simp only [srcDone_slc, main_srcDone, dyn_srcDone, shadow_srcDone, hmain, hshadow, hdyn, srcPort_srcClean, true_and]
  exact fun i hi => installEntry_ne hi _ s

/-- An install from the ring window: every epoch reads the new entry, no other ring changes, and nothing is staged (R125). -/
theorem ringInstalled_tables (r : Nat) (e : RingEnt) (s : State) :
    let u := rstgResult 0 ((installExpert r e s).upDlv fun d => { d with rstg := none })
    (∀ ep, ringAt u r ep = e) ∧ ringNow u r = e ∧ u.dlv.rstg = none ∧ u.dlv.rstgResult = 0 ∧ ∀ i, i ≠ r → u.ringV i = s.ringV i := by
  intro u
  have hring : ∀ i, u.ringV i = if i = r then { s.ringV r with cur := e, prior := e } else s.ringV i := installExpert_ringV r e s
  refine ⟨fun ep => ?_, ?_, rfl, rfl, fun i hi => (hring i).trans (if_neg hi)⟩
  · rw [ringAt, hring, if_pos rfl, verAt, ite_self]
  · rw [ringNow, hring, if_pos rfl]

/-- Settles O23: each GO has one outcome per refusal of its table, in the model's order, and an install that ends in `afterDlv`; what an
expert's install of a ring sets going in DLV leaves the ring entries alone. -/
theorem sourceAndRingWindowsInstall : Obligations.SourceAndRingWindowsInstall := by
  unfold Obligations.SourceAndRingWindowsInstall
  refine ⟨fun c q k s => ⟨fun hw => writesOk_of_effect hw fun x => ?_, fun hw => writesOk_of_effect hw fun x => ?_, fun hw =>
      ⟨fun hno => writesOk_of_effect hw fun x => ?_, fun hgo => ⟨fun hst => writesOk_of_effect hw fun x => ?_, fun e he =>
        ⟨fun hs => writesOk_of_effect hw fun x => ?_, fun hs hq => writesOk_of_effect hw fun x => ?_, fun hs hq =>
          ⟨fun hc => writesOk_of_effect hw fun x => ?_, fun hc => ?_⟩⟩⟩⟩⟩,
    fun c q k s => ⟨fun hw => writesOk_of_effect hw fun x => ?_, fun hw ha => writesOk_of_effect hw fun x => ?_,
      fun hw ha => writesOk_of_effect hw fun x => ?_, fun hw => writesOk_of_effect hw fun x => ?_,
      fun i hw => writesOk_of_effect hw fun x => ?_, fun hw =>
      ⟨fun hno => writesOk_of_effect hw fun x => ?_, fun hgo => ⟨fun hst => writesOk_of_effect hw fun x => ?_, fun e he =>
        ⟨fun hs => writesOk_of_effect hw fun x => ?_, fun hs => ⟨fun hok => writesOk_of_effect hw fun x => ?_,
          fun hok hm => writesOk_of_effect hw fun x => ?_, fun hok hm => ?_⟩⟩⟩⟩⟩⟩
  -- the source window
  · exact ⟨by simp [Only, writeReg, rtpAnswer], rfl⟩
  · exact ⟨by simp [Only, writeReg, rtpAnswer], rfl⟩
  · rw [writeReg_srcCtl, hno]
    simp [Only, rtpAnswer]
  · rw [writeReg_srcCtl, if_pos hgo, srcGo_unstaged (s := entered x s) hst]
    exact ⟨by simp [Only, srcResult, rtpAnswer], rfl⟩
  · rw [writeReg_srcCtl, if_pos hgo, srcGo_sealed (s := entered x s) he hs]
    exact ⟨by simp [srcResult], sealedReport_violLast q (entered x s)⟩
  · rw [writeReg_srcCtl, if_pos hgo, srcGo_quarantined (s := entered x s) he hs hq]
    rfl
  · rw [writeReg_srcCtl, if_pos hgo, srcGo_crowded (s := entered x s) he hs hq hc]
    rfl
  · obtain ⟨x, hx⟩ := exec_write hw
    rw [writeReg_srcCtl, if_pos hgo, srcGo_installs (s := entered x s) he hs hq hc] at hx
    exact ⟨_, hx, srcInstalled_tables _ e (entered x s)⟩
  -- the arbiter and the pacer
  · exact ⟨by simp [Only, writeReg, rtpAnswer], rfl⟩
  · rw [writeReg, onLow, if_neg ha, fld_accData_of_low ha _ (by decide)]
    exact ⟨by simp [Only, rtpAnswer], rfl⟩
  · rw [writeReg, onLow, if_neg ha, fld_accData_of_low ha _ (by decide)]
    exact ⟨by simp [Only, rtpAnswer], rfl⟩
  -- the ring window
  · exact ⟨by simp [Only, writeReg, rtpAnswer], rfl⟩
  · exact ⟨by simp [Only, writeReg, rtpAnswer], rfl⟩
  · rw [writeReg_rstgCtl, hno]
    simp [Only, rtpAnswer]
  · rw [writeReg_rstgCtl, if_pos hgo, rstgGo_unstaged (s := entered x s) hst]
    exact ⟨by simp [Only, rstgResult, rtpAnswer], rfl⟩
  · rw [writeReg_rstgCtl, if_pos hgo, rstgGo_sealed (s := entered x s) he hs]
    exact ⟨by simp [rstgResult], sealedReport_violLast q (entered x s)⟩
  · rw [writeReg_rstgCtl, if_pos hgo, rstgGo_refused (s := entered x s) he hs hok]
    exact ⟨by simp [Only, rstgResult, rtpAnswer], rfl⟩
  · rw [writeReg_rstgCtl, if_pos hgo, rstgGo_moves (s := entered x s) he hs hok hm]
    exact ⟨by simp [Only, rstgResult, rtpAnswer], rfl⟩
  · obtain ⟨x, hx⟩ := exec_write hw
    rw [writeReg_rstgCtl, if_pos hgo, rstgGo_installs (s := entered x s) he hs hok hm] at hx
    exact ⟨_, hx, ringInstalled_tables _ e (entered x s)⟩

end Sys2Proof.Proofs
end

section
/-! SUPPORT. O24: the gate window and GATE_UPDATE (Tables 5-10 to 5-13, R301). -/

namespace Sys2Proof.Proofs

open Sys2Proof Sys2Proof.Machine Sys2Proof.Safety

/-! ### The gate window -/

/-- A write of a staging word stages the region that GT_STG_SEL selects, and touches no region in force (R102). -/
theorem stageRegion_tables (i : Nat) (a : Acc) (d : Reg64) (s : State) :
    (∀ j, (stageRegion i a d s).region j = s.region j) ∧ (stageRegion i a d s).gates.go = s.gates.go ∧
    ∀ j, (stageRegion i a d s).stagedRegion j =
      if stgKey s = some j then some (setRegionWord (stgRegion s) i (accMerge a (stgWord s i) d)) else s.stagedRegion j := by
  unfold stageRegion
  split
  · next j₀ hkey =>
    refine ⟨fun _ => rfl, rfl, fun j => ?_⟩
    rw [State.stagedRegion_setStagedRegion, hkey]
    simp only [Option.some.injEq, eq_comm]
  · next hkey =>
    exact ⟨fun _ => rfl, rfl, fun j => by rw [hkey]; rfl⟩

theorem writeReg_gtUpd (q : RtpReq) (ten : BitVec 8) (s : State) :
    writeReg q ten .gtUpd s = if accOne (rtpAcc q) q.data 0 then s.upGates (fun g => { g with go := true }) else s := rfl

/-! ### GATE_UPDATE: the staged regions -/

theorem sealedTen_congr {s u : State} (h : u.tenant = s.tenant) (t : BitVec 8) : sealedTen u t = sealedTen s t := by
  rw [sealedTen, sealedTen, State.tenantR_congr _ _ _ h]

/-- Region `j` as GATE_UPDATE has to leave it: the staged one, unless it names a sealed tenant, before or after (R103). -/
def dueRegion (s : State) (j : Nat) : Region :=
  match s.stagedRegion j with
  | some r => if sealedTen s (regTen (s.region j)) || sealedTen s (regTen r) then s.region j else r
  | none => s.region j

theorem dueRegion_staged {s : State} {j : Nat} {r : Region} (h : s.stagedRegion j = some r) :
    dueRegion s j = if sealedTen s (regTen (s.region j)) || sealedTen s (regTen r) then s.region j else r := by
  simp only [dueRegion, h]

theorem dueRegion_unstaged {s : State} {j : Nat} (h : s.stagedRegion j = none) : dueRegion s j = s.region j := by
  simp only [dueRegion, h]

theorem dueRegion_congr {s u : State} (j : Nat) (hg : u.stagedRegion j = s.stagedRegion j) (hr : u.region j = s.region j)
    (ht : u.tenant = s.tenant) : dueRegion u j = dueRegion s j := by
  rw [dueRegion, dueRegion, hg, hr]
  simp only [sealedTen_congr ht]

theorem installStaged_unstaged {s : State} {k : Nat} (h : s.stagedRegion k = none) : installStaged k s = s := by
  simp only [installStaged, h]

theorem installStaged_staged {s : State} {k : Nat} {r : Region} (h : s.stagedRegion k = some r) :
    installStaged k s = if sealedTen s (regTen (s.region k)) || sealedTen s (regTen r) then s.setStagedRegion k none
      else (installRegion k r s).setStagedRegion k none := by
  simp only [installStaged, h]

theorem installStaged_only (k : Nat) (s : State) : Only [.gates] s (installStaged k s) := blank_installStaged k s (by decide)

/-- The region is staged no more, and no other is touched. -/
theorem installStaged_stagedRegion (k : Nat) (s : State) (j : Nat) :
    (installStaged k s).stagedRegion j = if j = k then none else s.stagedRegion j := by
  cases h : s.stagedRegion k with
  | none =>
    rw [installStaged_unstaged h]
    split
    · next hj => rw [hj, h]
    · rfl
  | some r =>
    rw [installStaged_staged h]
    split <;> exact State.stagedRegion_setStagedRegion _ _ _ _

theorem installStaged_region (k : Nat) (s : State) (j : Nat) :
    (installStaged k s).region j = if j = k then dueRegion s k else s.region j := by
  cases h : s.stagedRegion k with
  | none =>
    rw [installStaged_unstaged h, dueRegion_unstaged h]
    split
    · next hj => rw [hj]
    · rfl
  | some r =>
    rw [installStaged_staged h, dueRegion_staged h]
    by_cases hs : (sealedTen s (regTen (s.region k)) || sealedTen s (regTen r)) = true
    · rw [if_pos hs, if_pos hs]
      split
      · next hj => rw [hj]; rfl
      · rfl
    · rw [if_neg hs, if_neg hs]
      exact State.region_setRegion s k r j

/-- What is due of each region stays due while another is installed, and is in force once it is installed itself. -/
theorem dueRegion_installStaged (k : Nat) (s : State) (j : Nat) : dueRegion (installStaged k s) j = dueRegion s j := by
  by_cases hj : j = k
  · subst hj
    rw [dueRegion_unstaged (by rw [installStaged_stagedRegion, if_pos rfl]), installStaged_region, if_pos rfl]
  · exact dueRegion_congr j (by rw [installStaged_stagedRegion, if_neg hj]) (by rw [installStaged_region, if_neg hj])
      ((installStaged_only k s).tenant (by decide))

/-- Every staged region is installed. -/
def installAll (s : State) : State := (stagedKeys s).foldl (fun s k => installStaged k s) s

@[simp] theorem blank_installAll {ks : List Comp} (s : State) (h : Comp.gates ∈ ks) : blank ks (installAll s) = blank ks s :=
  blank_foldl (fun s k => blank_installStaged k s h) _ _

theorem dueRegion_foldl_installStaged (l : List Nat) (s : State) (j : Nat) :
    dueRegion (l.foldl (fun s k => installStaged k s) s) j = dueRegion s j := by
  induction l generalizing s with
  | nil => rfl
  | cons k l ih => rw [List.foldl_cons, ih, dueRegion_installStaged]

theorem foldl_installStaged_stagedRegion (l : List Nat) (s : State) (j : Nat) :
    (l.foldl (fun s k => installStaged k s) s).stagedRegion j = if j ∈ l then none else s.stagedRegion j := by
  induction l generalizing s with
  | nil => rfl
  | cons k l ih =>
    rw [List.foldl_cons, ih, installStaged_stagedRegion]
    by_cases hj : j = k <;> simp [hj]

/-- An index that the table does not list holds the unlisted value. -/
theorem get_of_not_listed {α : Type} (d : Nat → α) {t : Tbl α} {k : Nat} (h : k ∉ t.map Prod.fst) : Tbl.get d t k = d k := by
  induction t with
  | nil => rfl
  | cons p t ih =>
    rw [List.map_cons, List.mem_cons, not_or] at h
    rw [Tbl.get, if_neg (Ne.symm h.1), ih h.2]

theorem installAll_stagedRegion (s : State) (j : Nat) : (installAll s).stagedRegion j = none := by
  refine (foldl_installStaged_stagedRegion _ s j).trans ?_
  split
  · rfl
  · next h => exact get_of_not_listed noneD h

theorem installAll_region (s : State) (j : Nat) : (installAll s).region j = dueRegion s j := by
  rw [← dueRegion_unstaged (installAll_stagedRegion s j)]
  exact dueRegion_foldl_installStaged _ s j

/-! ### GATE_UPDATE: the DIPs it needs -/

/-- PWR_ON_REQ of the domain is high, or will rise once PWR_ON_ACK is low (R40). -/
def Asked (d : Nat) (s : State) : Prop := bitAt s.pwr.req d = true ∨ bitAt s.pwr.want d = true

theorem getLsbD_bit (d : Nat) {e : Nat} (he : e < 30) : (1#30 <<< d).getLsbD e = decide (e = d) := by
  rw [← BitVec.twoPow_eq, BitVec.getLsbD_twoPow]
  by_cases h : d = e
  · simp [h, he]
  · simp [h, Ne.symm h]

theorem bitAt_or_bit (w : BitVec 30) (d : Nat) {e : Nat} (he : e < 30) : bitAt (w ||| 1#30 <<< d) e = (bitAt w e || decide (e = d)) := by
  rw [bitAt, BitVec.getLsbD_or, getLsbD_bit d he, bitAt]

theorem bitAt_and_not_bit (w : BitVec 30) {d e : Nat} (he : e < 30) (hde : e ≠ d) : bitAt (w &&& ~~~(1#30 <<< d)) e = bitAt w e := by
  rw [bitAt, BitVec.getLsbD_and, BitVec.getLsbD_not, getLsbD_bit d he, bitAt, decide_eq_false hde, decide_eq_true he]
  simp only [Bool.not_false, Bool.and_true]

/-- The three things that waking a domain can come to (R40). -/
theorem wake_cases (d : Nat) (s : State) :
    (wake d s = s ∧ (domOn s d = true ∨ bitAt s.pwr.req d = true)) ∨
    wake d s = (s.upPwr fun p => { p with want := p.want ||| (1#30 <<< d) }) ∨ wake d s = powerOn d s := by
  unfold wake
  split
  · next h => exact .inl ⟨rfl, by simpa using h⟩
  · split
    · exact .inr (.inl rfl)
    · exact .inr (.inr rfl)

theorem asked_wake_self {d : Nat} {s : State} (hd : d < 30) (hoff : domOn s d = false) : Asked d (wake d s) := by
  rcases wake_cases d s with ⟨h, hon⟩ | h | h <;> rw [h]
  · exact .inl (hon.resolve_left (by simp [hoff]))
  · exact .inr ((bitAt_or_bit _ d hd).trans (by simp))
  · exact .inl ((bitAt_or_bit _ d hd).trans (by simp))

/-- A wish is not taken back by waking another domain; of the domain itself it becomes a request. -/
theorem asked_wake {d e : Nat} {s : State} (he : e < 30) (h : Asked e s) : Asked e (wake d s) := by
  rcases wake_cases d s with ⟨hw, -⟩ | hw | hw <;> rw [hw]
  · exact h
  · exact h.imp id fun hwant => (bitAt_or_bit _ d he).trans (by rw [hwant, Bool.true_or])
  · by_cases hed : e = d
    · exact .inl ((bitAt_or_bit _ d he).trans (by simp [hed]))
    · refine h.imp (fun hreq => (bitAt_or_bit _ d he).trans (by rw [hreq, Bool.true_or])) fun hwant => ?_
      exact (bitAt_and_not_bit _ he hed).trans hwant

theorem asked_foldl_wake (l : List Nat) {e : Nat} {s : State} (he : e < 30) (h : Asked e s) :
    Asked e (l.foldl (fun s n => wake (dDip n) s) s) := by
  induction l generalizing s with
  | nil => exact h
  | cons n l ih => exact ih (asked_wake he h)

/-- Each of a list of DIPs that are off is asked for once all are woken. -/
theorem asked_of_mem {l : List Nat} {n : Nat} {s : State} (hn : n < 16) (hoff : domOn s (dDip n) = false) (hmem : n ∈ l) :
    Asked (dDip n) (l.foldl (fun s n => wake (dDip n) s) s) := by
  have hd : dDip n < 30 := by unfold dDip; omega
  induction l generalizing s with
  | nil => cases hmem
  | cons m l ih =>
    rcases List.mem_cons.mp hmem with rfl | hmem
    · exact asked_foldl_wake l hd (asked_wake_self hd hoff)
    · exact ih (by rw [domOn, wake_on]; exact hoff) hmem

theorem mem_sleepingDips {s : State} {n : Nat} (h : n ∈ sleepingDips s) : n < 16 ∧ domOn s (dDip n) = false := by
  unfold sleepingDips at h
  split at h
  · simpa using h
  · cases h

/-! ### GATE_UPDATE -/

theorem doGateUpdate_awake {s : State} (hgo : s.gates.go = true) (hacc : accepting s = true) (h : sleepingDips s = []) :
    doGateUpdate s = afterDlv (releaseColour ((installAll s).upGates fun g => { g with go := false })) := by
  simp only [doGateUpdate, hgo, hacc, h, installAll, Bool.not_true, Bool.or_false, Bool.false_eq_true, if_false]

theorem doGateUpdate_asleep {s : State} (hgo : s.gates.go = true) (hacc : accepting s = true) (h : sleepingDips s ≠ []) :
    doGateUpdate s = (sleepingDips s).foldl (fun s n => wake (dDip n) s) s := by
  simp only [doGateUpdate, hgo, hacc, Bool.not_true, Bool.or_false, Bool.false_eq_true, if_false]

theorem exec_gateUpdate {s : State} (hup : Up s) : exec .gateUpdate s = .next (doGateUpdate s.begin_) := congrArg _ (State.run_up hup)

/-- Settles O24: a write of the window is one update of the gates; GATE_UPDATE leaves each region as due, since installing one keeps what is
due of all. -/
theorem gateWindowInstalls : Obligations.GateWindowInstalls := by
  unfold Obligations.GateWindowInstalls
  intro c q k s
  refine ⟨fun hw => writesOk_of_effect hw fun x => ?_, fun i hw => writesOk_of_effect hw fun x => ?_,
    fun hw => ⟨fun hgo => writesOk_of_effect hw fun x => ?_, fun hno => writesOk_of_effect hw fun x => ?_⟩,
    fun hup hgo hacc => ⟨fun hnone => ?_, fun n hn => ?_⟩⟩
  · exact ⟨by simp [Only, writeReg, rtpAnswer], rfl⟩
  · exact ⟨by simp [Only, writeReg, rtpAnswer], stageRegion_tables i (rtpAcc q) q.data (entered x s)⟩
  · rw [writeReg_gtUpd, if_pos hgo]
    exact ⟨by simp [Only, rtpAnswer], rfl⟩
  · rw [writeReg_gtUpd, hno]
    simp [Only, rtpAnswer]
  · rw [exec_gateUpdate hup, doGateUpdate_awake (s := s.begin_) hgo hacc hnone]
    refine ⟨_, rfl, by simp [Only], rfl, installAll_stagedRegion s.begin_, fun j => ?_⟩
    exact (installAll_region s.begin_ j).trans rfl
  · obtain ⟨hlt, hoff⟩ := mem_sleepingDips hn
    rw [exec_gateUpdate hup, doGateUpdate_asleep (s := s.begin_) hgo hacc (List.ne_nil_of_mem hn)]
    exact ⟨_, rfl, by simp [Only, sleepingDips], asked_of_mem hlt hoff hn⟩

end Sys2Proof.Proofs
end

section
/-! SUPPORT. O17: a write of LN_CONS (R131), and the residue members that the room it gives lets present (R143). -/

namespace Sys2Proof.Proofs

open Sys2Proof Sys2Proof.Machine Sys2Proof.Safety

/-! ### A residue member presents: of the halves, one reservation of its own (R130, R143) -/

/-- A token comes from nowhere during a stall, else from the half's bucket or from the pool's (R154, R157). -/
theorem entryToken_cases {l r : Nat} {s t : State} (h : entryToken l r s = some t) :
    t = s ∨ t = s.setBucket r (s.bucket r - token) ∨ t = s.upDlv fun d => { d with poolBucket := d.poolBucket - token } := by
  have hguar {u : State} (hu : guarToken r s = some u) : u = s.setBucket r (s.bucket r - token) := by
    unfold guarToken at hu
    split at hu
    · exact (Option.some.inj hu).symm
    · cases hu
  unfold entryToken at h
  split at h
  · unfold anyToken at h
    split at h
    · exact .inl (Option.some.inj h).symm
    · split at h
      · next hu => exact .inr (.inl (Option.some.inj h ▸ hguar hu))
      · unfold poolToken at h
        split at h
        · exact .inr (.inr (Option.some.inj h).symm)
        · cases h
  · exact .inr (.inl (hguar h))

theorem entryToken_half {l r : Nat} {s t : State} (h : entryToken l r s = some t) : t.dlv.half = s.dlv.half := by
  rcases entryToken_cases h with rfl | rfl | rfl
  · rfl
  · rw [State.setBucket, State.upDlv_self]
  · rw [State.upDlv_self]

theorem presentMember_half (q : Req) (r : Nat) (s : State) : (presentMember q r s).dlv.half = s.dlv.half := by
  unfold presentMember
  split
  · next h => rw [present_half, entryToken_half h]
  · exact paceWait_half q s

theorem reserve_half (r : Nat) (s : State) (j : Nat) : (reserve r s).half j = if j = r then
    { s.half r with resv := (s.half r).resv + 1,
                    full := decide (halfSize s r ≤ usedOf (s.setHalf r { s.half r with resv := (s.half r).resv + 1 }) r) }
    else s.half j := by
  rw [reserve, noteFull_half, State.half_setHalf_self, State.half_setHalf]
  split <;> rfl

/-- Where a residue member finds no room or no run, nothing happens; else of the halves its own takes a reservation. -/
theorem presentResidue_half (k r m : Nat) (s : State) :
    presentResidue k r m s = s ∨ ∀ j, (presentResidue k r m s).half j = (reserve r s).half j := by
  unfold presentResidue
  split
  · split
    · refine .inr fun j => ?_
      rw [half_eq_of _ _ (presentMember_half _ _ _), reserve_half, reserve_half]
      rfl
    · exact .inl rfl
  · exact .inl rfl

/-! ### FULL of a half follows its used count (R130) -/

theorem halfSize_congr {s u : State} (r : Nat) (h : u.dlv.ring = s.dlv.ring) : halfSize u r = halfSize s r := by
  rw [halfSize, halfSize, ringNow, ringNow, State.ringV, State.ringV, h]

/-- FULL of half `r` says whether its used count has reached its SIZE. -/
def FullFollows (r : Nat) (s : State) : Prop := (s.half r).full = decide (halfSize s r ≤ usedOf s r)

theorem FullFollows.congr {r : Nat} {s u : State} (h : FullFollows r s) (hh : u.half r = s.half r) (hr : u.dlv.ring = s.dlv.ring) :
    FullFollows r u := by
  rw [FullFollows, usedOf, hh, halfSize_congr r hr]
  exact h

theorem fullFollows_noteFull (r : Nat) (s : State) : FullFollows r (noteFull r s) := by
  rw [FullFollows, usedOf, noteFull_half, if_pos rfl, halfSize_congr r (noteFull_ring r s)]
  rfl

theorem fullFollows_presentResidue {r : Nat} {s : State} (k m : Nat) (h : FullFollows r s) : FullFollows r (presentResidue k r m s) := by
  rcases presentResidue_half k r m s with hsame | htakes
  · rwa [hsame]
  · exact (fullFollows_noteFull r _).congr (htakes r) ((presentResidue_ring k r m s).trans (reserve_ring r s).symm)

theorem fullFollows_presentResidues {r : Nat} {s : State} (h : FullFollows r s) : FullFollows r (presentResidues r s) :=
  List.foldlRecOn _ _ h fun _ hb k _ => List.foldlRecOn _ _ hb fun _ hc m _ => fullFollows_presentResidue k m hc

/-! ### Presenting residue changes room accounting only -/

/-- Halves that agree but for room accounting agree in CONS, PROD, ARM, NLVL and SEQ. -/
theorem fields_of_butRoom {g h : Half} (e : g.butRoom = h.butRoom) :
    g.cons = h.cons ∧ g.prod = h.prod ∧ g.arm = h.arm ∧ g.nlvl = h.nlvl ∧ g.seq = h.seq :=
  ⟨(congrArg Half.cons e :), (congrArg Half.prod e :), (congrArg Half.arm e :), (congrArg Half.nlvl e :), (congrArg Half.seq e :)⟩

theorem noteFull_butRoom (r : Nat) (s : State) (j : Nat) : ((noteFull r s).half j).butRoom = (s.half j).butRoom := by
  rw [noteFull_half]
  split
  · next h => subst h; rfl
  · rfl

theorem presentResidue_butRoom (k r m : Nat) (s : State) (j : Nat) : ((presentResidue k r m s).half j).butRoom = (s.half j).butRoom := by
  rcases presentResidue_half k r m s with hsame | htakes
  · rw [hsame]
  · rw [htakes, reserve_half]
    split
    · next h => subst h; rfl
    · rfl

theorem presentResidues_butRoom (r : Nat) (s : State) (j : Nat) : ((presentResidues r s).half j).butRoom = (s.half j).butRoom :=
  butRoom_foldl j (fun s k => butRoom_foldl j (fun s m => presentResidue_butRoom k r m s j) _ s) _ s

/-! ### The consumer index (R131) -/

theorem consTo_takes {r : Nat} {c : BitVec 31} {s : State} (h : ((s.half r).prod - c).toNat ≤ halfSize s r) :
    consTo r c s = presentResidues r (noteFull r (s.setHalf r { s.half r with cons := c })) := if_pos h

theorem consTo_refuses {r : Nat} {c : BitVec 31} {s : State} (h : halfSize s r < ((s.half r).prod - c).toNat) :
    consTo r c s = bump (dlvPage + 0x0B0) s := if_neg (Nat.not_le.mpr h)

/-- A value that is taken is CONS of its half; but for room accounting no half changes otherwise. -/
theorem consTo_butRoom_of_takes {r : Nat} {c : BitVec 31} {s : State} (h : ((s.half r).prod - c).toNat ≤ halfSize s r) (j : Nat) :
    ((consTo r c s).half j).butRoom = if j = r then { s.half r with cons := c }.butRoom else (s.half j).butRoom := by
  rw [consTo_takes h, presentResidues_butRoom, noteFull_butRoom, State.half_setHalf]
  split <;> rfl

theorem consTo_full_of_takes {r : Nat} {c : BitVec 31} {s : State} (h : ((s.half r).prod - c).toNat ≤ halfSize s r) :
    ((consTo r c s).half r).full = decide (halfSize s r ≤ usedOf (consTo r c s) r) := by
  rw [consTo_takes h]
  have hfull := fullFollows_presentResidues (fullFollows_noteFull r (s.setHalf r { s.half r with cons := c }))
  rwa [FullFollows, halfSize_congr (s := s) r (by rw [presentResidues_ring, noteFull_ring, setHalf_ring])] at hfull

theorem consTo_half_of_refuses {r : Nat} {c : BitVec 31} {s : State} (h : halfSize s r < ((s.half r).prod - c).toNat) (j : Nat) :
    (consTo r c s).half j = s.half j := by
  rw [consTo_refuses h]
  exact State.half_congr _ _ j (bump_dlv _ s)

theorem bump_cnt (o : Nat) (s : State) : (bump o s).cnt o = s.cnt o + 1 := State.cnt_setCnt_self s o _

/-- Whether the value is taken or not, PROD, ARM, NLVL and SEQ of every half stay, and CONS of every other half. -/
theorem consTo_keeps (r : Nat) (c : BitVec 31) (s : State) (j : Nat) :
    ((consTo r c s).half j).prod = (s.half j).prod ∧ ((consTo r c s).half j).arm = (s.half j).arm ∧
    ((consTo r c s).half j).nlvl = (s.half j).nlvl ∧ ((consTo r c s).half j).seq = (s.half j).seq ∧
    (j ≠ r → ((consTo r c s).half j).cons = (s.half j).cons) := by
  rcases Nat.lt_or_ge (halfSize s r) ((s.half r).prod - c).toNat with h | h
  · rw [consTo_half_of_refuses h]
    exact ⟨rfl, rfl, rfl, rfl, fun _ => rfl⟩
  · have hj := consTo_butRoom_of_takes h j
    split at hj
    · next hjr =>
      subst hjr
      obtain ⟨-, hprod, harm, hnlvl, hseq⟩ := fields_of_butRoom hj
      exact ⟨hprod, harm, hnlvl, hseq, fun hne => absurd rfl hne⟩
    · obtain ⟨hcons, hprod, harm, hnlvl, hseq⟩ := fields_of_butRoom hj
      exact ⟨hprod, harm, hnlvl, hseq, fun _ => hcons⟩

/-! ### A write of LN_CONS -/

/-- A bit of the low half of the data, for a write that reaches the low half. -/
theorem bitAt_accData_of_low {a : Acc} (ha : a ≠ .hi) (d : Reg64) {i : Nat} (hi : i < 32) : bitAt (accData a d) i = bitAt d i := by
  cases a with
  | w8 => rfl
  | lo =>
    have hmask : ∀ j < 32, (0xFFFFFFFF#64).getLsbD j = true := by decide
    simp only [accData, bitAt, BitVec.getLsbD_and, hmask i hi, Bool.and_true]
  | hi => exact absurd rfl ha

theorem writeReg_lnCons {q : RtpReq} (ha : rtpAcc q ≠ .hi) (ten : BitVec 8) (n : Nat) (s : State) :
    writeReg q ten (.lnCons n) s =
      afterDlv (if bitAt q.data 31 then rearm n (consTo n (fld q.data 0 31) s) else consTo n (fld q.data 0 31) s) := by
  rw [writeReg, onLow, if_neg ha, writeCons, fld_accData_of_low ha _ (by decide), bitAt_accData_of_low ha _ (by decide)]

/-- Performance counters are no class-K counters. -/
theorem perfBy_cnt (d code n : Nat) (s : State) (o : Nat) : (perfBy d code n s).cnt o = s.cnt o := by
  unfold perfBy
  refine List.foldlRecOn (motive := fun u : State => u.cnt o = s.cnt o) _ _ rfl fun u hu k _ => ?_
  split
  · exact hu
  · exact hu

theorem rtpTaken_cnt (s : State) (o : Nat) : (rtpTaken s).cnt o = s.cnt o := by
  rw [rtpTaken, perf, perfBy_cnt, perfUnit, perfBy_cnt]

/-- A write that is let through runs from an entered state whose class-K counters stand as they stood. -/
theorem exec_write_cnt {c : Instr} {q : RtpReq} {r : Reg} {k : Nat} {s : State} (hw : LetsWrite c q r k s) :
    ∃ x, exec c s = .next (rtpAnswer 0 .ok (writeReg q (regTen (s.region k)) r (entered x s))) ∧ ∀ o, (entered x s).cnt o = s.cnt o :=
  ⟨(rtpTaken s.begin_).ctr, (doRtp_write hw).trans
    (congrArg (fun u => Host.Outcome.next (rtpAnswer 0 .ok (writeReg q (regTen (s.region k)) r u))) (rtpTaken_begin s)), fun o => rtpTaken_cnt s.begin_ o⟩

/-- Settles O17: the written index goes through `consTo`, and the ARM bit then rearms or does not. A value that is taken lets residue members
present, which changes room accounting alone and keeps FULL behind the used count. -/
theorem consumerIndexWrites : Obligations.ConsumerIndexWrites := by
  unfold Obligations.ConsumerIndexWrites
  intro c q n k s hw ha
  obtain ⟨x, hx, hcnt⟩ := exec_write_cnt hw
  rw [writeReg_lnCons ha] at hx
  obtain ⟨hprod, harm, hnlvl, hseq, -⟩ := consTo_keeps n (fld q.data 0 31) (entered x s) n
  refine ⟨_, hx, hprod, harm, hnlvl, hseq, fun hfits => ?_, fun hbad => ?_, fun m hm => ?_⟩
  · have hn := (consTo_butRoom_of_takes (s := entered x s) hfits n).trans (if_pos rfl)
    exact ⟨(fields_of_butRoom hn).1, consTo_full_of_takes (s := entered x s) hfits⟩
  · refine ⟨consTo_half_of_refuses (s := entered x s) hbad n, ?_⟩
    rw [consTo_refuses (s := entered x s) hbad, bump_cnt, hcnt]
  · obtain ⟨hprod, -, -, -, hcons⟩ := consTo_keeps n (fld q.data 0 31) (entered x s) m
    exact ⟨hcons hm, hprod⟩

end Sys2Proof.Proofs
end

section
/-! SUPPORT. O26: ERR_RING_BASE, ERR_RING_CONS, TLY_LCONS and ERR_CORE_CTL (R131, R276, R290, R295, Tables 16-5 and 16-9). -/

namespace Sys2Proof.Proofs

open Sys2Proof Sys2Proof.Machine Sys2Proof.Safety

/-! ### What the log's operations keep of the error ring -/

/-- The error ring of Table 16-5: base, SIZE, indices and FAULTED. -/
def errRing (s : State) : BitVec 52 × BitVec 4 × BitVec 31 × BitVec 31 × Bool :=
  (s.log.base, s.log.size, s.log.prod, s.log.cons, s.log.faulted)

theorem errRing_foldl {g : Nat → State → State} (hg : ∀ e s, errRing (g e s) = errRing s) (l : List Nat) (s : State) :
    errRing (l.foldl (fun s e => g e s) s) = errRing s :=
  List.foldlRecOn (motive := fun u => errRing u = errRing s) _ _ rfl fun u hu e _ => (hg e u).trans hu

theorem errRing_setLogEnt (s : State) (e : Nat) (x : Option LogEnt) : errRing (s.setLogEnt e x) = errRing s := rfl
theorem errRing_setLost (s : State) (c : Nat) (v : BitVec 16) : errRing (s.setLost c v) = errRing s := rfl
theorem errRing_putEntry (e : Nat) (x : LogEnt) (s : State) : errRing (putEntry e x s) = errRing s := rfl

theorem errRing_askCopy (e : Nat) (s : State) : errRing (askCopy e s) = errRing s := by
  unfold askCopy
  split <;> rfl

theorem errRing_freeAcked (e : Nat) (s : State) : errRing (freeAcked e s) = errRing s := by
  unfold freeAcked
  split
  · split <;> rfl
  · rfl

theorem errRing_summarise (s : State) : errRing (summarise s) = errRing s := by
  unfold summarise
  split
  · split
    · rfl
    · dsimp only
      split <;> simp only [errRing_askCopy, errRing_setLogEnt, errRing_setLost, errRing_putEntry]
  · rfl

theorem logEnt_of_ents {s u : State} (h : u.log.ents = s.log.ents) (j : Nat) : u.logEnt j = s.logEnt j := by
  rw [State.logEnt, State.logEnt, h]

/-- Asking for a copy of an entry in use writes the entry's own copy fields (R285). -/
theorem askCopy_logEnt {e : Nat} {s : State} {y : LogEnt} (h : s.logEnt e = some y) (j : Nat) :
    (askCopy e s).logEnt j = if j = e then some { y with copyNo := s.log.copyCtr + 1, copyOk := false } else s.logEnt j := by
  refine (logEnt_of_ents (s := s.setLogEnt e (some { y with copyNo := s.log.copyCtr + 1, copyOk := false })) ?_ j).trans
    (State.logEnt_setLogEnt _ _ _ _)
  simp only [askCopy, h]
  rfl

/-- Asking for a copy of an entry frees none and takes none. -/
theorem askCopy_logEnt_isSome (e : Nat) (s : State) (j : Nat) : ((askCopy e s).logEnt j).isSome = (s.logEnt j).isSome := by
  cases h : s.logEnt e with
  | none => simp only [askCopy, h]
  | some y =>
    rw [askCopy_logEnt h]
    split
    · next hj => rw [hj, h]; rfl
    · rfl

/-! ### ERR_RING_BASE (R290) -/

/-- The error ring as a write of ERR_RING_BASE starts it again, before entries ask for their copies. -/
def ringRestarted (w : Reg64) (s : State) : State :=
  (takeBackCopies s).upLog fun l =>
    { l with base := fld w 12 52, size := if 8 < (fld w 0 4 : BitVec 4).toNat then 8 else fld w 0 4, cons := 0, prod := 0, faulted := false,
             copyQ := l.copyQ.filter fun c => match c with | .entry _ _ => false | _ => true }

/-- The same ring disabled: nothing waits for it, and entries that only waited for their copy are free (R286). -/
def ringStopped (w : Reg64) (s : State) : State :=
  (List.range 63).foldl (fun s e => freeAcked e s) ((ringRestarted w s).upLog fun l => { l with copyQ := [] })

theorem writeErrBase_enabled {w : Reg64} (h : (fld w 12 52 : BitVec 52) ≠ 0) (s : State) :
    writeErrBase w s = (uncopied (ringRestarted w s)).foldl (fun s e => askCopy e s) (ringRestarted w s) :=
  if_pos (decide_eq_true h)

theorem writeErrBase_disabled {w : Reg64} (h : (fld w 12 52 : BitVec 52) = 0) (s : State) :
    writeErrBase w s = if (ringStopped w s).log.bypass then ringStopped w s else summarise (ringStopped w s) := by
  have hoff : errRingOn (ringRestarted w s) = false := decide_eq_false fun hne => hne h
  unfold writeErrBase ringStopped
  generalize List.range 63 = l
  exact if_neg (by rw [Bool.not_eq_true]; exact hoff)

theorem errRing_writeErrBase (w : Reg64) (s : State) :
    errRing (writeErrBase w s) = (fld w 12 52, if 8 < (fld w 0 4 : BitVec 4).toNat then 8 else fld w 0 4, 0, 0, false) := by
  by_cases h : (fld w 12 52 : BitVec 52) = 0
  · have hstop : errRing (ringStopped w s) = errRing (ringRestarted w s) := errRing_foldl errRing_freeAcked _ _
    rw [writeErrBase_disabled h]
    split
    · exact hstop
    · exact (errRing_summarise _).trans hstop
  · rw [writeErrBase_enabled h, errRing_foldl errRing_askCopy]
    rfl

/-- Of DLV a write of ERR_RING_BASE takes back the copies formed for the ring, and nothing else (R290). -/
theorem writeErrBase_dlv (w : Reg64) (s : State) : (writeErrBase w s).dlv = (takeBackCopies s).dlv := by
  have honly : Only [.log] (takeBackCopies s) (writeErrBase w s) := by
    by_cases h : (fld w 12 52 : BitVec 52) = 0
    · rw [writeErrBase_disabled h]
      simp [Only, ringStopped, ringRestarted]
    · rw [writeErrBase_enabled h]
      simp [Only, ringRestarted]
  exact honly.dlv (by decide)

theorem takeBackCopies_own (s : State) : (takeBackCopies s).dlv.own = s.dlv.own.filter fun o => o.copy.isNone := rfl

theorem copy_none_of_writeErrBase {w : Reg64} {s : State} {o : Own} (ho : o ∈ (writeErrBase w s).dlv.own) : o.copy = none := by
  rw [writeErrBase_dlv, takeBackCopies_own] at ho
  exact Option.isNone_iff_eq_none.mp (List.mem_filter.mp ho).2

/-- With the ring enabled every entry in use stays in use, and none comes into use. -/
theorem writeErrBase_logEnt_isSome {w : Reg64} (h : (fld w 12 52 : BitVec 52) ≠ 0) (s : State) (j : Nat) :
    ((writeErrBase w s).logEnt j).isSome = (s.logEnt j).isSome := by
  rw [writeErrBase_enabled h]
  exact List.foldlRecOn (motive := fun u : State => (u.logEnt j).isSome = (s.logEnt j).isSome) _ _ rfl
    fun u hu e _ => (askCopy_logEnt_isSome e u j).trans hu

theorem writeErrBase_restarts (w : Reg64) (s : State) :
    (writeErrBase w s).log.base = fld w 12 52 ∧ (writeErrBase w s).log.size = (if 8 < (fld w 0 4 : BitVec 4).toNat then 8 else fld w 0 4) ∧
    (writeErrBase w s).log.prod = 0 ∧ (writeErrBase w s).log.cons = 0 ∧ (writeErrBase w s).log.faulted = false ∧
    (∀ o ∈ (writeErrBase w s).dlv.own, o.copy = none) ∧
    ((fld w 12 52 : BitVec 52) ≠ 0 → ∀ e, ((writeErrBase w s).logEnt e).isSome = (s.logEnt e).isSome) := by
  have hring := errRing_writeErrBase w s
  simp only [errRing, Prod.mk.injEq] at hring
  obtain ⟨hbase, hsize, hprod, hcons, hfaulted⟩ := hring
  exact ⟨hbase, hsize, hprod, hcons, hfaulted, fun o ho => copy_none_of_writeErrBase ho, fun h e => writeErrBase_logEnt_isSome h s e⟩

/-! ### TLY_LCONS (R131, R279) -/

/-- Base and CONS of every ledger stand. -/
def LedgersStand (s u : State) : Prop := ∀ m, (u.ledgerAt m).base = (s.ledgerAt m).base ∧ (u.ledgerAt m).cons = (s.ledgerAt m).cons

theorem LedgersStand.trans {s u v : State} (h : LedgersStand s u) (h' : LedgersStand u v) : LedgersStand s v :=
  fun m => ⟨(h' m).1.trans (h m).1, (h' m).2.trans (h m).2⟩

/-- A Ticket queued for a ledger advances PROD alone (R272). -/
theorem ledgersStand_ledgerPut (l : Nat) (w : Ticket) (s : State) : LedgersStand s (ledgerPut l w s) := by
  intro m
  unfold ledgerPut
  dsimp only
  split
  · rw [State.ledgerAt_setLedger]
    split
    · next hm => subst hm; exact ⟨rfl, rfl⟩
    · exact ⟨rfl, rfl⟩
  · exact ⟨rfl, rfl⟩

theorem ledgersStand_drainFinal (n : Nat) (s : State) : LedgersStand s (drainFinal n s) := by
  induction n generalizing s with
  | zero => exact fun _ => ⟨rfl, rfl⟩
  | succ n ih =>
    rw [drainFinal]
    split
    · next w rest _ =>
      split
      · exact fun _ => ⟨rfl, rfl⟩
      · have hput : LedgersStand s (ledgerPut 0 w (s.upTly fun y => { y with final := rest })) := ledgersStand_ledgerPut 0 w _
        exact hput.trans (ih _)
    · exact fun _ => ⟨rfl, rfl⟩

/-- CONS of the ledger written takes a value within the ring's size of PROD; the Tickets that then go move no CONS and no base. -/
theorem writeLcons_ledgerAt (n : Nat) (c : BitVec 31) (s : State) (m : Nat) :
    ((writeLcons n c s).ledgerAt m).base = (s.ledgerAt m).base ∧
    ((writeLcons n c s).ledgerAt m).cons =
      if m = n ∧ ((s.ledgerAt n).prod - c).toNat ≤ ledgerSize (s.ledgerAt n) then c else (s.ledgerAt m).cons := by
  unfold writeLcons
  dsimp only
  split
  · next hfits =>
    obtain ⟨hbase, hcons⟩ := ledgersStand_drainFinal _ (s.setLedger n { s.ledgerAt n with cons := c }) m
    rw [drainFinals, hbase, hcons, State.ledgerAt_setLedger]
    by_cases hm : m = n
    · rw [if_pos hm, if_pos ⟨hm, hfits⟩, hm]
      exact ⟨rfl, rfl⟩
    · rw [if_neg hm, if_neg fun h => hm h.1]
      exact ⟨rfl, rfl⟩
  · next hbad => exact ⟨rfl, (if_neg fun h => hbad h.2).symm⟩

/-! ### ERR_CORE_CTL (R295) -/

theorem coreRestart_halted {s : State} (h : s.fw.phase = .halted) :
    coreRestart s = (restartFw (s.upFw fun f => { f with restarts := [] })).upFw fun f => { f with coreRestart := true } := if_pos h

theorem coreRestart_running {s : State} (h : s.fw.phase ≠ .halted) : coreRestart s = s := if_neg h

/-- A restart outside the boot phase: Twifomon is RESTARTING, with the restarts counted so far. -/
theorem restartFw_fw {s : State} (h : s.fw.phase ≠ .boot) :
    (restartFw s).fw.phase = .restarting ∧ (restartFw s).fw.restarts = s.fw.restarts := by
  rw [restartFw, if_neg h, Only.fw (blank_restartAll (ks := [.pwr, .intake, .mbx, .ctr]) _ (by decide) (by decide) (by decide) (by decide))
    (by decide)]
  exact ⟨rfl, rfl⟩

theorem coreRestart_fw_of_halted {s : State} (h : s.fw.phase = .halted) :
    (coreRestart s).fw.phase = .restarting ∧ (coreRestart s).fw.restarts = [] ∧ (coreRestart s).fw.coreRestart = true := by
  rw [coreRestart_halted h]
  obtain ⟨hphase, hcount⟩ := restartFw_fw (s := s.upFw fun f => { f with restarts := [] }) (by rw [State.upFw_self, h]; decide)
  exact ⟨hphase, hcount, rfl⟩

/-! ### The writes -/

theorem writeReg_errCons {q : RtpReq} (ha : rtpAcc q ≠ .hi) (ten : BitVec 8) (s : State) :
    writeReg q ten .errCons s = writeErrCons (fld q.data 0 31) s := by
  rw [writeReg, onLow, if_neg ha, fld_accData_of_low ha _ (by decide)]

theorem writeReg_lcons {q : RtpReq} (ha : rtpAcc q ≠ .hi) (ten : BitVec 8) (n : Nat) (s : State) :
    writeReg q ten (.lcons n) s = writeLcons n (fld q.data 0 31) s := by
  rw [writeReg, onLow, if_neg ha, fld_accData_of_low ha _ (by decide)]

theorem writeReg_coreCtl (q : RtpReq) (ten : BitVec 8) (s : State) :
    writeReg q ten .coreCtl s = if accOne (rtpAcc q) q.data 0 then coreRestart s else s := rfl

theorem writeErrCons_log (c : BitVec 31) (s : State) :
    (writeErrCons c s).log = if (s.log.prod - c).toNat ≤ errRingRecs s then { s.log with cons := c } else s.log := by
  unfold writeErrCons
  split <;> rfl

/-- Settles O26: what follows the restart of the error ring keeps the ring's registers and, with the ring enabled, the entries in use; a
consumer index is a test and one field; RESTART acts while Twifomon is halted. -/
theorem errorAndLedgerRegisters : Obligations.ErrorAndLedgerRegisters := by
  unfold Obligations.ErrorAndLedgerRegisters
  intro c q k s
  refine ⟨fun hw => writesOk_of_effect hw fun x => ?_, fun hw ha => writesOk_of_effect hw fun x => ?_,
    fun n hw ha => writesOk_of_effect hw fun x => ?_, fun hw =>
      ⟨fun hgo hhalt => writesOk_of_effect hw fun x => ?_, fun hno => writesOk_of_effect hw fun x => ?_⟩⟩
  · exact ⟨by simp [Only, writeReg, rtpAnswer], writeErrBase_restarts _ (entered x s)⟩
  · rw [writeReg_errCons ha]
    exact ⟨by simp [Only, rtpAnswer], writeErrCons_log _ (entered x s)⟩
  · rw [writeReg_lcons ha]
    have hledger := writeLcons_ledgerAt n (fld q.data 0 31) (entered x s)
    refine ⟨by simp [Only, rtpAnswer], ?_, fun m => ⟨(hledger m).1, fun hm => ?_⟩⟩
    · exact (hledger n).2.trans (by simp only [true_and]; rfl)
    · exact (hledger m).2.trans (if_neg fun h => hm h.1)
  · rw [writeReg_coreCtl, if_pos hgo]
    obtain ⟨hphase, hcount, hrestart⟩ := coreRestart_fw_of_halted (s := entered x s) hhalt
    exact ⟨hphase, hcount, hrestart, by simp [Only, rtpAnswer]⟩
  · have hkept : writeReg q (regTen (s.region k)) .coreCtl (entered x s) = entered x s := by
      rw [writeReg_coreCtl]
      rcases hno with hno | hrun
      · rw [hno]; rfl
      · rw [coreRestart_running (s := entered x s) hrun, ite_self]
    rw [hkept]
    simp [Only, rtpAnswer]

end Sys2Proof.Proofs
end

section
/-! SUPPORT. O8: TXN_COMMIT on a block that asks nobody (R159, R182, R183, R206, Table 10-2). -/

namespace Sys2Proof.Proofs

open Sys2Proof Sys2Proof.Machine Sys2Proof.Safety

/-! ### The regions of a flip -/

/-- What installing one staged entry makes of region `k`: only an entry of that region reaches it. -/
def itemRegion (k : Nat) (i : Item) (r : Region) : Region :=
  match i with
  | .region j e => if k = j then e else r
  | _ => r

/-- What installs, other than a region's, writes. -/
theorem installItem_only_of_not_region (x : BitVec 16) (restart : Bool) {i : Item} (hi : ∀ k e, i ≠ .region k e) (s : State) :
    Only [.intake, .slc, .dlv, .twin, .relay, .tly, .ctr] s (installItem x restart i s) := by
  cases i with
  | region k e => exact absurd rfl (hi k e)
  | src k e => exact blank_installSrc k e x s (by decide)
  | ring r e =>
    exact blank_installRing r e x restart s (by decide) (by decide) (by decide) (by decide) (by decide) (by decide) (by decide)
  | mcast k e => simp [Only, installItem]
  | remote k w => simp [Only, installItem]
  | group g w => exact blank_installGroup g w s (by decide) (by decide)

theorem installItem_region (x : BitVec 16) (restart : Bool) (i : Item) (s : State) (k : Nat) :
    (installItem x restart i s).region k = itemRegion k i (s.region k) := by
  have hother (hi : ∀ j e, i ≠ .region j e) : (installItem x restart i s).region k = s.region k :=
    State.region_congr _ _ k ((installItem_only_of_not_region x restart hi s).gates (by decide))
  cases i with
  | region j e => exact State.region_setRegion s j e k
  | _ => exact hother nofun

/-- Every staged entry installed, in the order of `itemsOf`. -/
def installItems (x : BitVec 16) (restart : Bool) (l : List Item) (s : State) : State :=
  l.foldl (fun s i => installItem x restart i s) s

theorem installItems_only (x : BitVec 16) (restart : Bool) (l : List Item) (s : State) :
    Only [.intake, .slc, .dlv, .gates, .twin, .relay, .tly, .ctr] s (installItems x restart l s) :=
  blank_foldl (fun s i => blank_installItem x restart i s (by decide) (by decide) (by decide) (by decide) (by decide) (by decide)
    (by decide) (by decide)) l s

theorem installItems_region (x : BitVec 16) (restart : Bool) (l : List Item) (s : State) (k : Nat) :
    (installItems x restart l s).region k = l.foldl (fun r i => itemRegion k i r) (s.region k) := by
  induction l generalizing s with
  | nil => rfl
  | cons i l ih => exact (ih _).trans (by rw [installItem_region, List.foldl_cons])

theorem foldl_itemRegion_unchanged {k : Nat} {l : List Item} (h : ∀ i ∈ l, ∀ r, itemRegion k i r = r) (r : Region) :
    l.foldl (fun r i => itemRegion k i r) r = r :=
  List.foldlRecOn (motive := fun u => u = r) l _ rfl fun u hu i hi => (h i hi u).trans hu

/-- What installing the staged regions `l` makes of region `k`. -/
def regionAfter (k : Nat) (l : Tbl Region) (r : Region) : Region := l.foldl (fun r p => if k = p.1 then p.2 else r) r

/-- Of a transaction's entries its regions alone reach region `k`. -/
theorem foldl_itemsOf_region (t : Txn) (k : Nat) (r : Region) :
    (itemsOf t).foldl (fun r i => itemRegion k i r) r = regionAfter k t.regions r := by
  have hnone {α : Type} (l : List α) (f : α → Item) (hf : ∀ a r, itemRegion k (f a) r = r) (r : Region) :
      (l.map f).foldl (fun r i => itemRegion k i r) r = r :=
    foldl_itemRegion_unchanged (fun i hi r => by obtain ⟨a, -, rfl⟩ := List.mem_map.mp hi; exact hf a r) r
  simp only [itemsOf, List.foldl_append]
  rw [hnone t.srcs _ fun _ _ => rfl, hnone t.groups _ fun _ _ => rfl, hnone t.rings _ fun _ _ => rfl, hnone t.mcasts _ fun _ _ => rfl,
    hnone t.remotes _ fun _ _ => rfl, List.foldl_map]
  rfl

/-- Staged regions that are listed once each are in force as staged; a region that is not listed is what it was. -/
theorem regionAfter_of_listed_once {l : Tbl Region} (hl : (l.map Prod.fst).Pairwise (· < ·)) (k : Nat) (r : Region) :
    (∀ p ∈ l, p.1 = k → regionAfter k l r = p.2) ∧
    (k ∉ l.map Prod.fst → regionAfter k l r = r) := by
  induction l generalizing r with
  | nil => exact ⟨nofun, fun _ => rfl⟩
  | cons q l ih =>
    rw [List.map_cons, List.pairwise_cons] at hl
    obtain ⟨hfirst, hrest⟩ := hl
    refine ⟨fun p hp hk => ?_, fun hk => ?_⟩
    · rcases List.mem_cons.mp hp with rfl | hp
      · have hunlisted : k ∉ l.map Prod.fst := fun hk' => absurd (hfirst k hk') (by omega)
        exact ((ih hrest _).2 hunlisted).trans (if_pos hk.symm)
      · exact (ih hrest _).1 p hp hk
    · rw [List.map_cons, List.mem_cons, not_or] at hk
      exact ((ih hrest _).2 hk.2).trans (if_neg hk.1)

theorem releaseColour_region (s : State) (k : Nat) : (releaseColour s).region k = s.region k := by
  unfold releaseColour
  split
  · rfl
  · dsimp only
    split <;> rfl

/-! ### The flip -/

/-- The flip but for the end of capture: entries in force, the epoch, the drain and the merge, and what they release. -/
def flipped (x : BitVec 16) (restart : Bool) (t : Txn) (s : State) : State :=
  settleLatches (releaseColour
    (((installItems x restart (itemsOf t) s).upGlb fun g =>
      { g with epoch := x, draining := true, merging := g.merging || decide (t.srcs ≠ []) }).upFw fun f => { f with committed := true }))

theorem flipAt_eq (x : BitVec 16) (restart : Bool) (t : Txn) (s : State) :
    flipAt x restart t s = if s.glb.capture && enables s t then endCapture (flipped x restart t s) else flipped x restart t s := rfl

theorem flipped_only (x : BitVec 16) (restart : Bool) (t : Txn) (s : State) :
    Only [.intake, .slc, .dlv, .gates, .twin, .relay, .tly, .ctr, .glb, .fw] s (flipped x restart t s) := by
  simp [Only, flipped, installItems]

theorem flipped_glb (x : BitVec 16) (restart : Bool) (t : Txn) (s : State) :
    (flipped x restart t s).glb = { s.glb with epoch := x, draining := true, merging := s.glb.merging || decide (t.srcs ≠ []) } := by
  have hsettle (u : State) : (settleLatches (releaseColour u)).glb = u.glb :=
    Only.glb (cs := [.intake, .gates]) (by simp [Only]) (by decide)
  rw [flipped, hsettle, ← (installItems_only x restart (itemsOf t) s).glb (by decide)]
  rfl

theorem endCapture_glb (s : State) : (endCapture s).glb = { s.glb with capture := false } :=
  Only.glb (cs := [.slc, .ctr]) (blank_foldl (fun s k => blank_endCaptureOne k s (by decide) (by decide)) _ _) (by decide)

theorem flipAt_only (x : BitVec 16) (restart : Bool) (t : Txn) (s : State) :
    Only [.intake, .slc, .dlv, .gates, .twin, .relay, .tly, .ctr, .glb, .fw] s (flipAt x restart t s) := by
  rw [flipAt_eq]
  split
  · exact (blank_endCapture _ (by decide) (by decide) (by decide)).trans (flipped_only x restart t s)
  · exact flipped_only x restart t s

theorem flipAt_glb (x : BitVec 16) (restart : Bool) (t : Txn) (s : State) :
    (flipAt x restart t s).glb.epoch = x ∧ (flipAt x restart t s).glb.draining = true ∧
    (flipAt x restart t s).glb.merging = (s.glb.merging || decide (t.srcs ≠ [])) := by
  rw [flipAt_eq]
  split
  · rw [endCapture_glb, flipped_glb]
    exact ⟨rfl, rfl, rfl⟩
  · rw [flipped_glb]
    exact ⟨rfl, rfl, rfl⟩

theorem flipAt_region (x : BitVec 16) (restart : Bool) (t : Txn) (s : State) (k : Nat) :
    (flipAt x restart t s).region k = regionAfter k t.regions (s.region k) := by
  have hflipped : (flipped x restart t s).region k = regionAfter k t.regions (s.region k) := by
    have hlatches (u : State) : (settleLatches u).region k = u.region k :=
      State.region_congr _ _ k (Only.gates (cs := [.intake]) (blank_settleLatches u (by decide)) (by decide))
    rw [← foldl_itemsOf_region, ← installItems_region x restart, flipped, hlatches, releaseColour_region]
    rfl
  rw [flipAt_eq]
  split
  · rw [← hflipped]
    exact State.region_congr _ _ k
      (Only.gates (cs := [.glb, .slc, .ctr]) (blank_endCapture _ (by decide) (by decide) (by decide)) (by decide))
  · exact hflipped

/-! ### The journalled answer (R169) -/

/-- The answer that the flip journals is the one that its mailbox shows, and the answer leaves the mailbox's transaction. -/
theorem answerJournal_journalNow {m : Mbx} {s : State} (res : List DW) (h : (s.mailbox (mbxKey m)).cmd.isSome) :
    Answered m stOk res s (answerJournal m (journalNow m res s)) ∧
    ((answerJournal m (journalNow m res s)).mailbox (mbxKey m)).txn = (s.mailbox (mbxKey m)).txn := by
  obtain ⟨c, hc⟩ := Option.isSome_iff_exists.mp h
  cases hs : (s.mailbox (mbxKey m)).secured <;> simp [Answered, answerJournal, journalNow, hc, hs, respondN_mailbox, finishMbx_shows]

/-- What the mailbox shows answers every state in which the command had this SEQ and this envelope. -/
theorem answered_congr {m : Mbx} {st : Byte} {res : List DW} {s u t : State}
    (hseq : (u.mailbox (mbxKey m)).seq = (s.mailbox (mbxKey m)).seq)
    (hsec : (u.mailbox (mbxKey m)).secured = (s.mailbox (mbxKey m)).secured) (h : Answered m st res u t) : Answered m st res s t := by
  unfold Answered at h ⊢
  rwa [hseq, hsec] at h

/-! ### The commit -/

/-- The flip of mailbox `m`'s transaction, with the transaction closed, before its answer. -/
def flippedFor (m : Mbx) (x : Txn) (s : State) : State := perf dMgt 0x51 (closeTxn m (flipTxn x s))

theorem flippedFor_tables (m : Mbx) (x : Txn) (s : State) :
    (flippedFor m x s).glb = (flipTxn x s).glb ∧ (flippedFor m x s).gates = (flipTxn x s).gates ∧
    (flippedFor m x s).mailbox (mbxKey m) = { s.mailbox (mbxKey m) with txn := none } := by
  have honly : Only [.mbx, .ctr] (flipTxn x s) (flippedFor m x s) := by simp [Only, flippedFor]
  refine ⟨honly.glb (by decide), honly.gates (by decide), ?_⟩
  rw [flippedFor, State.mailbox_congr _ _ _ (perf_mbx _ _ _), closeTxn, State.mailbox_setMailbox_self]
  exact congrArg (fun b : Mailbox => { b with txn := none }) (State.mailbox_congr _ _ _ ((flipAt_only _ _ x s).mbx (by decide)))

/-- The state in which a commit that asks nobody has flipped and answered. -/
def committedAlone (m : Mbx) (x : Txn) (s : State) : State := answerJournal m (flipFor m x s)

theorem committedAlone_eq (m : Mbx) (x : Txn) (s : State) :
    committedAlone m x s = answerJournal m (journalNow m (commitRes (s.glb.epoch + 1) x.srcs.length) (flippedFor m x s)) := by
  rw [← (flipAt_glb (s.glb.epoch + 1) true x s).1, ← flipTxn, ← (flippedFor_tables m x s).1]
  rfl

/-- The answer touches neither the epoch nor the gates. -/
theorem committedAlone_tables (m : Mbx) (x : Txn) (s : State) :
    (committedAlone m x s).glb = (flipTxn x s).glb ∧ (committedAlone m x s).gates = (flipTxn x s).gates := by
  obtain ⟨hglb, hgates, -⟩ := flippedFor_tables m x s
  have honly : Only [.freeCtr, .pwr, .intake, .mbx, .ctr] (flippedFor m x s) (committedAlone m x s) := by
    rw [committedAlone_eq]
    simp [Only]
  exact ⟨(honly.glb (by decide)).trans hglb, (honly.gates (by decide)).trans hgates⟩

theorem committedAlone_mailbox {m : Mbx} {s : State} (x : Txn) (h : (s.mailbox (mbxKey m)).cmd.isSome) :
    Answered m stOk (commitRes (s.glb.epoch + 1) x.srcs.length) s (committedAlone m x s) ∧
    ((committedAlone m x s).mailbox (mbxKey m)).txn = none := by
  obtain ⟨-, -, hbox⟩ := flippedFor_tables m x s
  obtain ⟨hanswered, htxn⟩ := answerJournal_journalNow (m := m) (s := flippedFor m x s)
    (commitRes (s.glb.epoch + 1) x.srcs.length) (by rw [hbox]; exact h)
  rw [committedAlone_eq]
  exact ⟨answered_congr (by rw [hbox]) (by rw [hbox]) hanswered, htxn.trans (by rw [hbox])⟩

/-- A command that runs past its checks does not wait for another mailbox's commit. -/
theorem busy_of_serves {m : Mbx} {op n : Nat} {c : Cmd} {s : State} (h : Serves m op n c s) : (s.mailbox (mbxKey m)).busy = .taken := by
  have hcopied := h.copied
  unfold taken at hcopied
  dsimp only at hcopied
  split at hcopied
  · next hb => exact hb.1
  · cases hcopied

theorem exec_txnCommit {m : Mbx} {c : Cmd} {s : State} {x : Txn} (h : Serves m 0x0101 0 c s) (hx : (s.mailbox (mbxKey m)).txn = some x) :
    exec (.txnCommit m) s = .next (commitTxn m x true s.begin_) := by
  have hbusy : (s.begin_.mailbox (mbxKey m)).busy ≠ .commitWait := by
    rw [State.mailbox_begin, busy_of_serves h]
    decide
  refine congrArg _ ((State.run_up h.up).trans ?_)
  rw [doTxnCommit, if_neg hbusy, runCmd_serves h, commitCmd, State.mailbox_begin, hx]

/-- Nothing is in the way of a commit: none runs or is prepared, no drain or merge, and the DIPs that it needs are awake (R174, R187,
R301). -/
theorem commitTxn_goes {m : Mbx} {x : Txn} {s : State} (hcommit : s.fw.commit = none) (hprep : s.fw.prepared = none)
    (hdrain : s.glb.draining = false) (hmerge : s.glb.merging = false) (hdips : changesDip x = true → dipAsleep s = false) :
    commitTxn m x true s = commitNow m x s := by
  have hawake : ¬ (changesDip x && dipAsleep s) = true := by
    rw [Bool.and_eq_true]
    exact fun ⟨hc, ha⟩ => absurd (hdips hc) (by simp [ha])
  rw [commitTxn, if_neg (by simp [hdrain, hmerge]), if_neg (by simp [hcommit, hdrain, hmerge]), if_neg (by simp [hprep]), if_neg hawake]

theorem commitNow_alone {m : Mbx} {x : Txn} {s : State} (hsolo : s.twin.state = .solo) (halone : needsNobody s = true)
    (hadm : admission s x (ceilNow s) = true) (hre : recheck s (stagerOf m) x = true) :
    commitNow m x s = afterDlv (committedAlone m x s) := by
  have hway : commitWay s = .alone := by simp [commitWay, hsolo, halone]
  simp only [commitNow, hway, hadm, hre, Bool.not_true, Bool.false_eq_true, if_false]
  rfl

/-- Settles O8: with nothing in the way the commit is one flip, whose regions are those staged, then its journalled answer. -/
theorem commitAloneFlipsAtOnce : Obligations.CommitAloneFlipsAtOnce := by
  unfold Obligations.CommitAloneFlipsAtOnce
  intro m c s x hserves hx hsolo halone hcommit hprep hdrain hmerge hadm hre hsorted hdips
  obtain ⟨hepoch, hdraining, hmerging⟩ := flipAt_glb (s.glb.epoch + 1) true x s.begin_
  obtain ⟨hglb, hgates⟩ := committedAlone_tables m x s.begin_
  obtain ⟨hanswered, htxn⟩ := committedAlone_mailbox (s := s.begin_) x hserves.running
  have hregion (k : Nat) : (committedAlone m x s.begin_).region k = regionAfter k x.regions (s.region k) :=
    (State.region_congr _ _ k hgates).trans (flipAt_region _ _ x s.begin_ k)
  refine ⟨committedAlone m x s.begin_, ?_, ?_, ?_, ?_, fun p hp => ?_, fun k hk => ?_, htxn, hanswered⟩
  · rw [exec_txnCommit hserves hx, commitTxn_goes (s := s.begin_) hcommit hprep hdrain hmerge hdips,
      commitNow_alone (s := s.begin_) hsolo halone hadm hre]
  · rw [hglb]
    exact hepoch
  · rw [hglb]
    exact hdraining
  · rw [hglb]
    exact hmerging.trans (by rw [State.begin_, hmerge, Bool.false_or])
  · exact (hregion p.1).trans ((regionAfter_of_listed_once hsorted p.1 _).1 p hp rfl)
  · exact (hregion k).trans ((regionAfter_of_listed_once hsorted k _).2 hk)

end Sys2Proof.Proofs
end

section
/-! SUPPORT. O42: SOAK_END (R149), PACER_PERIOD_END (R160, R162), MINUTE_BOUNDARY (R271, R272) and COUNTER_SNAPSHOT_CAPTURE (R282). -/

namespace Sys2Proof.Proofs

open Sys2Proof Sys2Proof.Machine Sys2Proof.Safety

/-! ### The end of a soak (R149) -/

/-- Source `k` as the end of the soak of group `g` leaves it: HELD by an event of the group, it is PENDING. -/
def unheld (g : Nat) (s : State) (k : Nat) : SrcDyn :=
  if (s.dyn k).st = .held ∧ (s.dyn k).ev.isSome ∧ (srcGroup (evEntry s k ((s.dyn k).ev.getD (newEv s 0 none false)))).toNat = g then
    { s.dyn k with st := .pending }
  else s.dyn k

theorem unheld_of_not_held {g : Nat} {s : State} {k : Nat} (h : (s.dyn k).st ≠ .held) : unheld g s k = s.dyn k :=
  if_neg fun hh => h hh.1

/-- A source is left as it is, or is written as `unheld` says. -/
theorem unholdOne_eq (g k : Nat) (s : State) :
    unholdOne g k s = s ∧ unheld g s k = s.dyn k ∨ unholdOne g k s = s.setDyn k (unheld g s k) := by
  unfold unholdOne unheld
  dsimp only
  split
  · next e hst hev =>
    simp only [hst, hev, Option.isSome_some, Option.getD_some, true_and]
    split
    · exact .inr rfl
    · exact .inl ⟨rfl, rfl⟩
  · next hno =>
    refine .inl ⟨rfl, if_neg fun ⟨hst, hev, _⟩ => ?_⟩
    obtain ⟨e, he⟩ := Option.isSome_iff_exists.mp hev
    exact hno e hst he

theorem unholdOne_dyn (g k : Nat) (s : State) (j : Nat) : (unholdOne g k s).dyn j = if j = k then unheld g s k else s.dyn j := by
  rcases unholdOne_eq g k s with ⟨h, hkeeps⟩ | h
  · rw [h, hkeeps]
    split
    · next hj => rw [hj]
    · rfl
  · rw [h, State.dyn_setDyn]

/-- Writing records of sources, one's own as it stands included, leaves what the end of the soak makes of the source. -/
theorem unheld_setDyn {g k j : Nat} {v : SrcDyn} {s : State} (h : (s.setDyn k v).dyn j = s.dyn j) :
    unheld g (s.setDyn k v) j = unheld g s j := by
  unfold unheld
  rw [h]
  rfl

/-- What the end of the soak makes of each source stays the same while others are taken, and once it is taken itself. -/
theorem unheld_unholdOne (g k : Nat) (s : State) (j : Nat) : unheld g (unholdOne g k s) j = unheld g s j := by
  rcases unholdOne_eq g k s with ⟨h, -⟩ | h
  · rw [h]
  · rw [h]
    by_cases hj : j = k
    · subst hj
      by_cases hheld : (unheld g s j).st = .held
      · have hkeeps : unheld g s j = s.dyn j := by
          unfold unheld at hheld ⊢
          split at hheld
          · cases hheld
          · next hno => exact if_neg hno
        exact unheld_setDyn ((State.dyn_setDyn_self _ _ _).trans hkeeps)
      · rw [unheld_of_not_held (by rwa [State.dyn_setDyn_self]), State.dyn_setDyn_self]
    · exact unheld_setDyn ((State.dyn_setDyn _ _ _ _).trans (if_neg hj))

theorem foldl_unholdOne_dyn (g : Nat) (l : List Nat) (s : State) (j : Nat) :
    (l.foldl (fun s k => unholdOne g k s) s).dyn j = if j ∈ l then unheld g s j else s.dyn j := by
  induction l generalizing s with
  | nil => rfl
  | cons k l ih =>
    rw [List.foldl_cons, ih, unheld_unholdOne, unholdOne_dyn]
    by_cases hj : j = k <;> simp [hj]

theorem soakFinish_dyn (g : Nat) (s : State) (j : Nat) : (soakFinish g s).dyn j = unheld g s j := by
  refine (foldl_unholdOne_dyn g _ _ j).trans ?_
  split
  · rfl
  · next hj =>
    have hidle : s.dyn j = dynD j := get_of_not_listed dynD hj
    have hst : (s.dyn j).st ≠ .held := by
      rw [hidle]
      exact (by decide : SState.idle ≠ .held)
    exact (unheld_of_not_held hst).symm

theorem soakFinish_grun (g : Nat) (s : State) : (soakFinish g s).grun g = { s.grun g with soaking := false, count := 0 } := by
  have hgroups : (soakFinish g s).dlv = (s.setGrun g { s.grun g with soaking := false, count := 0 }).dlv :=
    Only.dlv (cs := [.slc]) (blank_foldl (fun s k => blank_unholdOne g k s (by decide)) _ _) (by decide)
  exact (State.grun_congr _ _ g hgroups).trans (State.grun_setGrun_self _ _ _)

/-- The group soaks, and an accepted timestamp has reached END (R149). -/
def SoakDue (g : Nat) (s : State) : Prop :=
  (s.grun g).soaking = true ∧ (s.grun g).endAt.toNat ≤ s.glb.now.toNat ∧ (s.grun g).since < s.glb.ticks

theorem doSoakEnd_due {g : Nat} {s : State} (h : SoakDue g s) : doSoakEnd g s = soakFinish g s := by
  obtain ⟨hsoaks, hend, hsince⟩ := h
  exact if_pos (by simp [hsoaks, hend, hsince])

theorem doSoakEnd_early {g : Nat} {s : State} (h : ¬ SoakDue g s) : doSoakEnd g s = s :=
  if_neg fun hgo => h (by simpa [SoakDue, and_assoc] using hgo)

theorem exec_soakEnd {s : State} (hup : Up s) (g : Fin 4096) : exec (.soakEnd g) s = .next (doSoakEnd g.val s.begin_) :=
  congrArg _ (State.run_up hup)

/-! ### The end of a period (R160, R162) -/

/-- The state after `n` periods judged short or not, before a shortfall that begins is noted. -/
def periodEnded (short : Bool) (n : Nat) (s : State) : State :=
  s.upDlv fun d =>
    { d with ceil := nextCeil s short n, lastShort := short, periodRecs := 0, starved := [],
             periodStart := d.periodStart + BitVec.ofNat 64 (16000 * n) }

/-- Periods that have passed. -/
def periodsPast (s : State) : Nat := (s.glb.now.toNat - s.dlv.periodStart.toNat) / 16000

theorem doPacerPeriodEnd_due {u : List (BitVec 32)} {s : State} (hrun : s.glb.stalled = false) (hacc : accepting s = true)
    (hdue : s.dlv.periodStart.toNat + 16000 ≤ s.glb.now.toNat) :
    doPacerPeriodEnd u s =
      if periodShort s u && !s.dlv.lastShort then beginShort (periodEnded (periodShort s u) (periodsPast s) s)
      else periodEnded (periodShort s u) (periodsPast s) s :=
  if_neg (by simp [hrun, hacc, hdue])

/-- A period is short where one of the four channels had more than 1 µs of it starved or unacknowledged (R160). -/
theorem periodShort_four (u0 u1 u2 u3 : BitVec 32) (s : State) :
    periodShort s [u0, u1, u2, u3] = decide (1000 < u0.toNat + s.starved 0 ∨ 1000 < u1.toNat + s.starved 1 ∨
      1000 < u2.toNat + s.starved 2 ∨ 1000 < u3.toNat + s.starved 3) := by
  have hchannels : List.range 4 = [0, 1, 2, 3] := rfl
  simp only [periodShort, hchannels, List.any_cons, List.any_nil, Bool.or_false, Bool.decide_or]
  rfl

theorem exec_pacerPeriodEnd {s : State} (hup : Up s) (u0 u1 u2 u3 : BitVec 32) :
    exec (.pacerPeriodEnd u0 u1 u2 u3) s = .next (doPacerPeriodEnd [u0, u1, u2, u3] s.begin_) := congrArg _ (State.run_up hup)

/-- A count in the page of a tenant leaves every counter below the tenant pages. -/
theorem bump_tenPage_cnt (t : Nat) {o : Nat} (ho : o < 0x100000) (s : State) : (bump (tenPage t + 0x868) s).cnt o = s.cnt o := by
  refine (State.cnt_setCnt _ _ _ _).trans (if_neg ?_)
  unfold tenPage
  omega

/-- DLV_GUAR_SHORT_CNT (Table 8-7). -/
def shortfallsOff : Nat := dlvPage + 0x0E8

/-- A shortfall that begins sets SHORT, and is counted once in DLV's page (R162). -/
theorem beginShort_tables (s : State) :
    (beginShort s).dlv = (setShortFlag s (shortFlag s).hwSet).dlv ∧ (beginShort s).cnt shortfallsOff = s.cnt shortfallsOff + 1 := by
  unfold beginShort
  dsimp only
  constructor
  · rw [Only.dlv (cs := [.ctr]) (blank_foldl (fun s t => blank_bump _ s (by decide)) _ _) (by decide), logCEKind_dlv, bump_dlv]
  · refine (List.foldlRecOn (motive := fun u : State => u.cnt shortfallsOff = _) _ _ ?_ fun u hu t _ => ?_)
    · exact (State.cnt_congr _ _ _ (Only.ctr (cs := [.log]) (blank_logCEKind _ _ _ _ (by decide)) (by decide))).trans (bump_cnt _ _)
    · exact (bump_tenPage_cnt t (by decide) u).trans hu

/-- What the end of `n` periods leaves. -/
theorem pacer_tables (begins short : Bool) (n : Nat) (s : State) :
    let t := if begins then beginShort (periodEnded short n s) else periodEnded short n s
    t.dlv.ceil = nextCeil s short n ∧ t.dlv.periodStart = s.dlv.periodStart + BitVec.ofNat 64 (16000 * n) ∧ t.dlv.periodRecs = 0 ∧
      t.dlv.lastShort = short ∧ shortFlag t = (if begins then (shortFlag s).hwSet else shortFlag s) ∧
      t.cnt shortfallsOff = s.cnt shortfallsOff + if begins then 1 else 0 := by
  cases begins with
  | true =>
    obtain ⟨hdlv, hcnt⟩ := beginShort_tables (periodEnded short n s)
    simp only [if_true, shortFlag, hdlv]
    exact ⟨rfl, rfl, rfl, rfl, rfl, hcnt⟩
  | false => exact ⟨rfl, rfl, rfl, rfl, rfl, (BitVec.add_zero _).symm⟩

/-! ### A minute boundary (R271, R272) -/

/-- The state of TLY but for its ledgers and the FINAL Tickets that wait for room in one. -/
def butLedgers (y : Tly) : Tly := { y with ledger := [], final := [] }

theorem ledgerPut_butLedgers (l : Nat) (w : Ticket) (s : State) : butLedgers (ledgerPut l w s).tly = butLedgers s.tly := by
  unfold ledgerPut
  dsimp only
  split <;> rfl

theorem putTicket_butLedgers (t : Nat) (w : Ticket) (s : State) : butLedgers (putTicket t w s).tly = butLedgers s.tly :=
  List.foldlRecOn (motive := fun u : State => butLedgers u.tly = butLedgers s.tly) _ _ rfl
    fun u hu l _ => (ledgerPut_butLedgers l w u).trans hu

theorem drainFinal_butLedgers (n : Nat) (s : State) : butLedgers (drainFinal n s).tly = butLedgers s.tly := by
  induction n generalizing s with
  | zero => rfl
  | succ n ih =>
    rw [drainFinal]
    split
    · split
      · rfl
      · rw [ih, ledgerPut_butLedgers]
        rfl
    · rfl

theorem writeCkpt_butLedgers (t : Nat) (s : State) : butLedgers (writeCkpt t s).tly = butLedgers s.tly := by
  unfold writeCkpt
  split
  · split
    · rfl
    · exact putTicket_butLedgers _ _ _
  · rfl

theorem writeCkpts_butLedgers (s : State) : butLedgers (writeCkpts s).tly = butLedgers s.tly := by
  unfold writeCkpts
  generalize List.range 256 = l
  split
  · exact List.foldlRecOn (motive := fun u : State => butLedgers u.tly = butLedgers s.tly) _ _ rfl
      fun u hu t _ => (writeCkpt_butLedgers t u).trans hu
  · rfl

/-- The state in which the Tickets of a boundary begin: what waited for room and the partner's checkpoints have gone (R278, R279). -/
def ticketsBegin (s : State) : State := writeCkpts (drainFinals s)

theorem ticketsBegin_tly (s : State) :
    (ticketsBegin s).tly.tally = s.tly.tally ∧ (ticketsBegin s).tly.weight = s.tly.weight ∧ (ticketsBegin s).tly.minutes = s.tly.minutes := by
  have h : butLedgers (ticketsBegin s).tly = butLedgers s.tly := (writeCkpts_butLedgers _).trans (drainFinal_butLedgers _ s)
  exact ⟨(congrArg Tly.tally h :), (congrArg Tly.weight h :), (congrArg Tly.minutes h :)⟩

/-- DLV's own writes that wait still wait, the weights written stand, and so does every tally but those of `ts`. -/
def TicketsKeep (ts : List Nat) (s u : State) : Prop :=
  s.dlv.own ⊆ u.dlv.own ∧ u.tly.weight = s.tly.weight ∧ ∀ j ∉ ts, u.tallyAt j = s.tallyAt j

theorem ledgerPut_own (l : Nat) (w : Ticket) (s : State) : s.dlv.own ⊆ (ledgerPut l w s).dlv.own := by
  unfold ledgerPut
  dsimp only
  split
  · exact fun o ho => List.mem_append_left _ (List.mem_append_left _ ho)
  · exact fun o ho => ho

theorem putTicket_own (t : Nat) (w : Ticket) (s : State) : s.dlv.own ⊆ (putTicket t w s).dlv.own :=
  List.foldlRecOn (motive := fun u : State => s.dlv.own ⊆ u.dlv.own) _ _ (fun _ ho => ho)
    fun u hu l _ => fun _ ho => ledgerPut_own l w u (hu ho)

theorem tallyClear_dlv (t : Nat) (s : State) : (tallyClear t s).dlv = s.dlv := rfl

/-- The Ticket that tenant `t` forms at boundary `b` (R272, R273). -/
def ticketAt (b : BitVec 64) (t : Nat) (s : State) : Ticket :=
  ticketOf s (BitVec.ofNat 8 t) false (BitVec.ofNat 32 (b.toNat / minuteNs - 1)) (s.tly.minutes - (s.tallyAt t).span) b

/-- The state in which a Ticket formed stands in its ledgers, its counts not yet zeroed. -/
def ticketPut (b : BitVec 64) (t : Nat) (s : State) : State :=
  sendCkpt (ticketAt b t s) (putTicket t (ticketAt b t s) (countTags t s))

theorem ticketPut_tables (b : BitVec 64) (t : Nat) (s : State) :
    (ticketPut b t s).dlv = (putTicket t (ticketAt b t s) (countTags t s)).dlv ∧ butLedgers (ticketPut b t s).tly = butLedgers s.tly := by
  have hckpt (w : Ticket) (u : State) : Only [.link] u (sendCkpt w u) := blank_sendCkpt w u (by decide)
  have htags : (countTags t s).tly = s.tly := Only.tly (cs := [.ctr]) (blank_countTags t s (by decide)) (by decide)
  refine ⟨(hckpt _ _).dlv (by decide), ?_⟩
  rw [ticketPut, (hckpt _ _).tly (by decide), putTicket_butLedgers, htags]

theorem minuteTicket_idle {b : BitVec 64} {t : Nat} {s : State} (h : ticketDue s t = false) : minuteTicket b t s = s := by
  simp only [minuteTicket, h, Bool.not_false, if_true]

theorem minuteTicket_carried {b : BitVec 64} {t : Nat} {s : State} (hdue : ticketDue s t = true) (h : ticketBlocked s t = true) :
    minuteTicket b t s = s.setTally t { s.tallyAt t with carry := (s.tallyAt t).carry + 1 } := by
  simp only [minuteTicket, hdue, h, Bool.not_true, Bool.false_eq_true, if_false, if_true]

theorem minuteTicket_formed {b : BitVec 64} {t : Nat} {s : State} (hdue : ticketDue s t = true) (h : ticketBlocked s t = false) :
    minuteTicket b t s = tallyClear t (ticketPut b t s) := by
  simp only [minuteTicket, hdue, h, Bool.not_true, Bool.false_eq_true, if_false]
  rfl

theorem minuteTicket_keeps (b : BitVec 64) (t : Nat) (s : State) : TicketsKeep [t] s (minuteTicket b t s) := by
  have hne {j : Nat} (hj : j ∉ [t]) : j ≠ t := fun h => hj (List.mem_singleton.mpr h)
  cases hdue : ticketDue s t with
  | false =>
    rw [minuteTicket_idle hdue]
    exact ⟨fun _ ho => ho, rfl, fun _ _ => rfl⟩
  | true =>
    cases hfull : ticketBlocked s t with
    | true =>
      rw [minuteTicket_carried hdue hfull]
      exact ⟨fun _ ho => ho, rfl, fun j hj => (State.tallyAt_setTally _ _ _ _).trans (if_neg (hne hj))⟩
    | false =>
      obtain ⟨hdlv, htly⟩ := ticketPut_tables b t s
      rw [minuteTicket_formed hdue hfull]
      refine ⟨fun o ho => ?_, (congrArg Tly.weight htly :), fun j hj => ?_⟩
      · have hput := putTicket_own t (ticketAt b t s) (countTags t s)
        rw [countTags, cryTags_dlv, ← countTags, ← hdlv] at hput
        exact hput ho
      · refine (State.tallyAt_setTally _ _ _ _).trans ((if_neg (hne hj)).trans ?_)
        exact congrArg (fun y => Tbl.get tallyD y j) (congrArg Tly.tally htly :)

theorem foldl_minuteTicket_keeps (b : BitVec 64) (l : List Nat) (s : State) :
    TicketsKeep l s (l.foldl (fun s t => minuteTicket b t s) s) := by
  induction l generalizing s with
  | nil => exact ⟨fun _ ho => ho, rfl, fun _ _ => rfl⟩
  | cons t l ih =>
    obtain ⟨hown, hweight, htally⟩ := minuteTicket_keeps b t s
    obtain ⟨hown', hweight', htally'⟩ := ih (minuteTicket b t s)
    refine ⟨fun o ho => hown' (hown ho), hweight'.trans hweight, fun j hj => ?_⟩
    rw [List.mem_cons, not_or] at hj
    exact (htally' j hj.2).trans (htally j (by simpa using hj.1))

/-- The boundary with tenant 0's Ticket apart, which goes first. -/
theorem minuteTickets_eq (b : BitVec 64) (s : State) :
    minuteTickets b s =
      (((List.range 255).map Nat.succ).foldl (fun s t => minuteTicket b t s) (minuteTicket b 0 (ticketsBegin s))).upTly
        fun y => { y with weightNow := y.weight, minuteDue := none } := by
  have hrange : List.range 256 = 0 :: (List.range 255).map Nat.succ := List.range_succ_eq_map
  rw [minuteTickets, hrange, List.foldl_cons]
  rfl

/-- What a boundary leaves: the weights written are in force, and tenant 0's Ticket stands as it was made. -/
theorem minuteTickets_tables (b : BitVec 64) (s : State) :
    (minuteTickets b s).tly.minuteDue = none ∧ (minuteTickets b s).tly.weight = s.tly.weight ∧
    (minuteTickets b s).tly.weightNow = s.tly.weight ∧
    (minuteTicket b 0 (ticketsBegin s)).dlv.own ⊆ (minuteTickets b s).dlv.own ∧
    (minuteTickets b s).tallyAt 0 = (minuteTicket b 0 (ticketsBegin s)).tallyAt 0 := by
  obtain ⟨-, hbegin, -⟩ := ticketsBegin_tly s
  obtain ⟨-, hfirst, -⟩ := minuteTicket_keeps b 0 (ticketsBegin s)
  obtain ⟨hown, hrest, htally⟩ := foldl_minuteTicket_keeps b ((List.range 255).map Nat.succ) (minuteTicket b 0 (ticketsBegin s))
  have hothers : 0 ∉ (List.range 255).map Nat.succ := fun h => by
    obtain ⟨n, -, hn⟩ := List.mem_map.mp h
    exact absurd hn (Nat.succ_ne_zero n)
  have hzero := htally 0 hothers
  have hweight := hrest.trans (hfirst.trans hbegin)
  rw [minuteTickets_eq]
  generalize List.foldl _ _ _ = u at hown hzero hweight ⊢
  exact ⟨rfl, hweight, hweight, hown, hzero⟩

/-- A Ticket put into an enabled ledger waits as two writes, the first at the place of PROD (R272, R276). -/
theorem ledgerPut_writes {l : Nat} {s : State} (h : (s.ledgerAt l).en = true) (w : Ticket) :
    ∃ o ∈ (ledgerPut l w s).dlv.own, o.cls = 2 ∧ o.target = .ledger (BitVec.ofNat 8 l) ∧
      o.addr = (s.ledgerAt l).base + BitVec.ofNat 64 (128 * ((s.ledgerAt l).prod.toNat % ledgerSize (s.ledgerAt l))) := by
  unfold ledgerPut
  dsimp only
  rw [if_pos h]
  exact ⟨_, List.mem_append_left _ (List.mem_append_right _ (List.mem_singleton.mpr rfl)), rfl, rfl, rfl⟩

/-- Tenant 0 gets a Ticket at every boundary, and its one ledger is the fabric manager's (R272, R276). -/
theorem ticketDue_zero (s : State) : ticketDue s 0 = true := by simp [ticketDue]

theorem ticketBlocked_zero (s : State) : ticketBlocked s 0 = ledgerBlocked (s.ledgerAt 0) := by simp [ticketBlocked, ledgersOf]

theorem putTicket_zero (w : Ticket) (s : State) : putTicket 0 w s = ledgerPut 0 w s := by
  simp only [putTicket, ledgersOf, if_true, List.foldl_cons, List.foldl_nil]

/-- Tenant 0's Ticket where its ledger has room: its first write waits, its counts are zero and SEQ advances. -/
theorem minuteTicket_zero_formed {b : BitVec 64} {s : State} (h : ledgerBlocked (s.ledgerAt 0) = false) :
    ((s.ledgerAt 0).en = true → ∃ o ∈ (minuteTicket b 0 s).dlv.own, o.cls = 2 ∧ o.target = .ledger 0 ∧
      o.addr = (s.ledgerAt 0).base + BitVec.ofNat 64 (128 * ((s.ledgerAt 0).prod.toNat % ledgerSize (s.ledgerAt 0)))) ∧
    (minuteTicket b 0 s).tallyAt 0 = { tallyD 0 with seq := (s.tallyAt 0).seq + 1, span := s.tly.minutes } := by
  rw [minuteTicket_formed (ticketDue_zero s) ((ticketBlocked_zero s).trans h)]
  obtain ⟨hdlv, htly⟩ := ticketPut_tables b 0 s
  have htags : (countTags 0 s).ledgerAt 0 = s.ledgerAt 0 :=
    State.ledgerAt_congr _ _ 0 (Only.tly (cs := [.ctr]) (blank_countTags 0 s (by decide)) (by decide))
  refine ⟨fun hen => ?_, ?_⟩
  · have hwrites := ledgerPut_writes (l := 0) (s := countTags 0 s) (by rw [htags]; exact hen) (ticketAt b 0 s)
    rw [htags] at hwrites
    rwa [tallyClear_dlv, hdlv, putTicket_zero]
  · have htally : (ticketPut b 0 s).tallyAt 0 = s.tallyAt 0 := congrArg (fun y => Tbl.get tallyD y 0) (congrArg Tly.tally htly :)
    have hminutes : (ticketPut b 0 s).tly.minutes = s.tly.minutes := (congrArg Tly.minutes htly :)
    rw [tallyClear, State.tallyAt_setTally_self, htally, hminutes]
    rfl

theorem minuteTicket_zero_carried {b : BitVec 64} {s : State} (h : ledgerBlocked (s.ledgerAt 0) = true) :
    (minuteTicket b 0 s).tallyAt 0 = { s.tallyAt 0 with carry := (s.tallyAt 0).carry + 1 } := by
  rw [minuteTicket_carried (ticketDue_zero s) ((ticketBlocked_zero s).trans h), State.tallyAt_setTally_self]

theorem doMinuteBoundary_due {s : State} {b : BitVec 64} (hdue : s.tly.minuteDue = some b) (hrun : s.glb.stalled = false) :
    doMinuteBoundary s = minuteTickets b s := by
  simp only [doMinuteBoundary, hdue, hrun, Bool.false_eq_true, if_false]

theorem exec_minuteBoundary {s : State} (hup : Up s) : exec .minuteBoundary s = .next (doMinuteBoundary s.begin_) :=
  congrArg _ (State.run_up hup)

/-! ### Snapshots (R282) -/

/-- A list of writes of one class, target and tenant waits behind those that wait already. -/
theorem foldl_pushOwn {α : Type} (cls : BitVec 3) (tgt : WTarget) (addr : α → BitVec 64) (data : α → BitVec 512) (ten : BitVec 8)
    (l : List α) (s : State) :
    l.foldl (fun t j => pushOwn cls tgt (addr j) (data j) ten t) s =
      s.upDlv fun d =>
        { d with own := d.own ++ l.map fun j => { cls, target := tgt, addr := addr j, data := data j, ten, age := s.stepNo, copy := none } } := by
  induction l generalizing s with
  | nil =>
    rw [List.foldl_nil, List.map_nil]
    simp only [List.append_nil]
    rfl
  | cons j l ih =>
    rw [List.foldl_cons, ih]
    simp only [pushOwn, State.upDlv, List.append_assoc, List.cons_append, List.nil_append, List.map_cons]

theorem snapshot_dlv (s : State) :
    (snapshot s).dlv.own = s.dlv.own ++ (List.range 31).map fun j =>
      { cls := 4, target := .snapshot, addr := s.ctr.snapAddr + BitVec.ofNat 64 (64 * j), data := snapData s (s.ctr.snapSeq + 1) j, ten := 0,
        age := s.stepNo, copy := none } := by
  unfold snapshot
  generalize List.range 31 = l
  dsimp only
  rw [foldl_pushOwn]
  rfl

theorem snapshot_ctr (s : State) : (snapshot s).ctr = { s.ctr with snapSeq := s.ctr.snapSeq + 1 } := by
  unfold snapshot
  generalize List.range 31 = l
  dsimp only
  rw [foldl_pushOwn]
  rfl

/-- The next capture is due one interval on. -/
def snapScheduled (s : State) : State := s.upCtr fun c => { c with snapNext := s.glb.now + snapNs c.snapInt }

theorem doCounterSnapshotCapture_due {s : State} (hon : s.ctr.snapStopped = false) (hint : s.ctr.snapInt ≠ 0)
    (hrun : s.glb.stalled = false) (hfatal : s.log.fatal = false) (hacc : accepting s = true)
    (hdue : s.ctr.snapNext.toNat ≤ s.glb.now.toNat) :
    doCounterSnapshotCapture s = if snapBusy s then snapScheduled s else snapshot (snapScheduled s) :=
  if_neg (by simpa [hon, hrun, hfatal, hacc, hdue] using hint)

theorem exec_counterSnapshotCapture {s : State} (hup : Up s) :
    exec .counterSnapshotCapture s = .next (doCounterSnapshotCapture s.begin_) := congrArg _ (State.run_up hup)

/-! ### The four commands -/

/-- Settles O42: each command whose time has come runs one operation of the model, and the lemmas above say of each what it leaves; a
boundary's Tickets keep tenant 0's, since it goes first. -/
theorem soakPeriodMinuteAndSnapshot : Obligations.SoakPeriodMinuteAndSnapshot := by
  unfold Obligations.SoakPeriodMinuteAndSnapshot
  refine fun s hup => ⟨fun g => ⟨fun hdue => ?_, fun hearly => ?_⟩, fun u0 u1 u2 u3 hrun hacc hdue => ?_, fun b hdue hrun => ?_,
    fun hon hint hrun hfatal hacc hdue => ?_⟩
  · rw [exec_soakEnd hup, doSoakEnd_due (s := s.begin_) hdue]
    exact ⟨_, rfl, by simp [Only], soakFinish_grun _ _, fun k => soakFinish_dyn _ _ k⟩
  · rw [exec_soakEnd hup, doSoakEnd_early (s := s.begin_) hearly]
    exact ⟨_, rfl, by simp [Only]⟩
  · have hframe := blank_doPacerPeriodEnd (ks := [.out, .stepNo, .dlv, .ctr, .log]) [u0, u1, u2, u3] s.begin_
      (by decide) (by decide) (by decide)
    refine ⟨_, exec_pacerPeriodEnd hup u0 u1 u2 u3, hframe.trans (blank_begin_ s (by decide) (by decide)), ?_⟩
    rw [doPacerPeriodEnd_due (s := s.begin_) hrun hacc hdue, periodShort_four]
    exact pacer_tables _ _ _ s.begin_
  · obtain ⟨hnone, hweight, hnow, hown, htally⟩ := minuteTickets_tables b s.begin_
    obtain ⟨hsame, -, hminutes⟩ := ticketsBegin_tly s.begin_
    have hbefore : (ticketsBegin s.begin_).tallyAt 0 = s.tallyAt 0 := congrArg (fun y => Tbl.get tallyD y 0) hsame
    rw [exec_minuteBoundary hup, doMinuteBoundary_due (s := s.begin_) hdue hrun]
    refine ⟨_, rfl, hnone, hweight, hnow, fun hroom hen => ?_, fun hroom => ?_, fun hfull => ?_⟩
    · obtain ⟨o, ho, hwrite⟩ := (minuteTicket_zero_formed (b := b) (s := ticketsBegin s.begin_) hroom).1 hen
      exact ⟨o, hown ho, hwrite⟩
    · rw [htally, (minuteTicket_zero_formed (s := ticketsBegin s.begin_) hroom).2, hbefore, hminutes]
      rfl
    · rw [htally, minuteTicket_zero_carried (s := ticketsBegin s.begin_) hfull, hbefore]
  · rw [exec_counterSnapshotCapture hup, doCounterSnapshotCapture_due (s := s.begin_) hon hint hrun hfatal hacc hdue]
    refine ⟨_, rfl, ?_, ?_, fun hbusy => ?_, fun hfree => ?_⟩
    · split <;> simp [Only, snapScheduled]
    · split
      · rfl
      · rw [snapshot_ctr]
        rfl
    · rw [if_pos (show snapBusy s.begin_ = true from hbusy)]
      exact ⟨rfl, rfl⟩
    · rw [show snapBusy s.begin_ = false from hfree]
      exact ⟨congrArg Ctr.snapSeq (snapshot_ctr _), snapshot_dlv _⟩

end Sys2Proof.Proofs
end
